-- ==== Sys2Proof/Word.lean ====
section
/-! DEFINITION. The widths the block moves data in (spec/10_state.md, spec/30_encoding.md R91). -/

namespace Sys2Proof

/-- A host command word `CW` (R91). -/
abbrev CmdWord := BitVec 32

/-- The operand field `IMM16` of a command word (R91, R94). -/
abbrev Imm16 := BitVec 16

/-- One entry of WT or AT, and every value derived from one: `SAMPLE_W` = 16 (R7, R61). -/
abbrev Sample := BitVec 16

end Sys2Proof
end

