-- ==== Sys2Proof/Syntax.lean ====
section
/-! DEFINITION. The 22 operations of R90, one constructor per row of spec/opcode_table.json, and the words that
select them: a command word, an engine dispatch vector or a stream dispatch vector (R91, R98, R100). -/

namespace Sys2Proof

/-- One operation. The only operand any operation takes is IMM16, sixteen bits used as they stand (R94). -/
inductive Instr where
  | setf (n : Imm16)
  | setv (n : Imm16)
  | setp (n : Imm16)
  | setd (n : Imm16)
  | wsin
  | wtri
  | wsqr
  | warb
  | woff
  | stop
  | regen
  | lbeg
  | lpush (v : Imm16)
  | gStart
  | gOff
  | gSine
  | gSqr
  | gTri
  | gArb
  | gFin
  | tFire
  | tick
deriving DecidableEq, Repr

/-- What an agent's operation is selected by: the host's by a command word (R91), the engine's by EDV (R98), the
timer's and the streaming unit's by SDV (R100). SDV is tagged by the agent that reads it, because one SDV value can
enable both of their operations. -/
inductive Code where
  | cmd (w : CmdWord)
  | edv (v : BitVec 6)
  | timer (v : BitVec 3)
  | stream (v : BitVec 3)
deriving DecidableEq, Repr

end Sys2Proof
end

