-- ==== Sys2Proof/WellFormed.lean ====
section
/-! DEFINITION. Which codes are well-formed: those that match a row of the opcode table, `(word & mask) == match`
(R92, R98, R100). An `Instr` needs no check of its own: its one operand has IMM16's sixteen bits by its type, and a
sample that does not fit them (U19) cannot be written down. -/

namespace Sys2Proof

/-- Which kind of code a row is about: the table's formats CMD, EDV and SDV, SDV split by agent. -/
inductive CodeKind where
  | cmd | edv | timer | stream
deriving DecidableEq, Repr

/-- One row of spec/opcode_table.json. A dispatch vector is widened with zeros to the command word's 32 bits. -/
structure OpRow where
  mnemonic : String
  kind     : CodeKind
  pattern  : BitVec 32
  mask     : BitVec 32
deriving DecidableEq, Repr

/-- The thirteen rows of R92. -/
def hostRows : List OpRow :=
  [⟨"SETF", .cmd, 0x46000000, 0xDFFF0000⟩, ⟨"SETV", .cmd, 0x56000000, 0xDFFF0000⟩,
   ⟨"SETP", .cmd, 0x50000000, 0xDFFF0000⟩, ⟨"SETD", .cmd, 0x44000000, 0xDFFF0000⟩,
   ⟨"WSIN", .cmd, 0x53000000, 0xDFFFFFFF⟩, ⟨"WTRI", .cmd, 0x54000000, 0xDFFFFFFF⟩,
   ⟨"WSQR", .cmd, 0x51000000, 0xDFFFFFFF⟩, ⟨"WARB", .cmd, 0x41000000, 0xDFFFFFFF⟩,
   ⟨"WOFF", .cmd, 0x4F000000, 0xDFFFFFFF⟩, ⟨"STOP", .cmd, 0x58000000, 0xDFFFFFFF⟩,
   ⟨"REGEN", .cmd, 0x47000000, 0xDFFFFFFF⟩, ⟨"LBEG", .cmd, 0x4C000000, 0xDFFFFFFF⟩,
   ⟨"LPUSH", .cmd, 0x57000000, 0xDFFF0000⟩]

/-- The seven rows of R98. -/
def engineRows : List OpRow :=
  [⟨"G.START", .edv, 0x08, 0x28⟩, ⟨"G.OFF", .edv, 0x20, 0x37⟩, ⟨"G.SINE", .edv, 0x21, 0x37⟩,
   ⟨"G.SQR", .edv, 0x22, 0x37⟩, ⟨"G.TRI", .edv, 0x23, 0x37⟩, ⟨"G.ARB", .edv, 0x24, 0x37⟩,
   ⟨"G.FIN", .edv, 0x30, 0x30⟩]

/-- The two rows of R100. -/
def streamRows : List OpRow := [⟨"T.FIRE", .timer, 0x4, 0x4⟩, ⟨"TICK", .stream, 0x3, 0x3⟩]

/-- The whole opcode table (R90: 22 operations). -/
def opRows : List OpRow := hostRows ++ engineRows ++ streamRows

def Code.kind : Code → CodeKind
  | .cmd _ => .cmd
  | .edv _ => .edv
  | .timer _ => .timer
  | .stream _ => .stream

/-- A code's bits, bit 0 least significant (R8). -/
def Code.bits : Code → BitVec 32
  | .cmd w => w
  | .edv v => v.setWidth 32
  | .timer v => v.setWidth 32
  | .stream v => v.setWidth 32

/-- `(CW & mask) == match` (R92). -/
def OpRow.matchesCode (r : OpRow) (c : Code) : Bool :=
  c.kind == r.kind && (c.bits &&& r.mask) == r.pattern

/-- A code is well-formed when some row of the table matches it; any other code selects no operation (R96, R98). -/
def Code.wellFormed (c : Code) : Bool := opRows.any (·.matchesCode c)

/-- The row each operation is the name of. -/
def Instr.row : Instr → OpRow
  | .setf _ => ⟨"SETF", .cmd, 0x46000000, 0xDFFF0000⟩
  | .setv _ => ⟨"SETV", .cmd, 0x56000000, 0xDFFF0000⟩
  | .setp _ => ⟨"SETP", .cmd, 0x50000000, 0xDFFF0000⟩
  | .setd _ => ⟨"SETD", .cmd, 0x44000000, 0xDFFF0000⟩
  | .wsin => ⟨"WSIN", .cmd, 0x53000000, 0xDFFFFFFF⟩
  | .wtri => ⟨"WTRI", .cmd, 0x54000000, 0xDFFFFFFF⟩
  | .wsqr => ⟨"WSQR", .cmd, 0x51000000, 0xDFFFFFFF⟩
  | .warb => ⟨"WARB", .cmd, 0x41000000, 0xDFFFFFFF⟩
  | .woff => ⟨"WOFF", .cmd, 0x4F000000, 0xDFFFFFFF⟩
  | .stop => ⟨"STOP", .cmd, 0x58000000, 0xDFFFFFFF⟩
  | .regen => ⟨"REGEN", .cmd, 0x47000000, 0xDFFFFFFF⟩
  | .lbeg => ⟨"LBEG", .cmd, 0x4C000000, 0xDFFFFFFF⟩
  | .lpush _ => ⟨"LPUSH", .cmd, 0x57000000, 0xDFFF0000⟩
  | .gStart => ⟨"G.START", .edv, 0x08, 0x28⟩
  | .gOff => ⟨"G.OFF", .edv, 0x20, 0x37⟩
  | .gSine => ⟨"G.SINE", .edv, 0x21, 0x37⟩
  | .gSqr => ⟨"G.SQR", .edv, 0x22, 0x37⟩
  | .gTri => ⟨"G.TRI", .edv, 0x23, 0x37⟩
  | .gArb => ⟨"G.ARB", .edv, 0x24, 0x37⟩
  | .gFin => ⟨"G.FIN", .edv, 0x30, 0x30⟩
  | .tFire => ⟨"T.FIRE", .timer, 0x4, 0x4⟩
  | .tick => ⟨"TICK", .stream, 0x3, 0x3⟩

/-- The operand an operation carries, if its row has one (R92, R95). -/
def Instr.operand : Instr → Option Imm16
  | .setf n => some n
  | .setv n => some n
  | .setp n => some n
  | .setd n => some n
  | .lpush v => some v
  | .wsin | .wtri | .wsqr | .warb | .woff | .stop | .regen | .lbeg => none
  | .gStart | .gOff | .gSine | .gSqr | .gTri | .gArb | .gFin | .tFire | .tick => none

end Sys2Proof
end

