-- ==== Sys2Proof/Decode.lean ====
section
/-! DEFINITION. The decoder: R102 for command words, R98 and R100 for the dispatch vectors; total, rejecting by
name. After it the encoder, written from the same tables. -/

namespace Sys2Proof

/-- Why a code selects no operation. The first four are the causes of INVALID_COMMAND (R191). -/
inductive DecodeReject where
  /-- RSV, CW[23:16], is not 0 (R96). -/
  | reservedBits
  /-- IMM16 is not 0 and the letter is none of the five that take an operand (R95, R102). -/
  | strayOperand
  /-- OPC with its case bit cleared is none of the thirteen letter codes (R96). -/
  | unknownLetter
  /-- The letter R, which the block never reuses (R97). -/
  | reservedLetter
  /-- EDV `0d0ttt`: idle and not notified, the engine waits (R98). -/
  | engineWaits
  /-- EDV `10p101`, `10p110`, `10p111`: a reserved type code (R99). -/
  | reservedType
  /-- SDV has RUN = 0: no T.FIRE (R100). -/
  | clockStopped
  /-- SDV has IF = 0 or IE = 0: no TICK (R100). -/
  | noTick
deriving DecidableEq, Repr

/-- `CW[31:24] & 0xDF`: the letter code with the case bit cleared (R93, R102). -/
def letterOf (w : CmdWord) : BitVec 8 := w.extractLsb' 24 8 &&& 0xDF#8

/-- `CW[23:16]` (R91). -/
def rsvOf (w : CmdWord) : BitVec 8 := w.extractLsb' 16 8

/-- `CW[15:0]` (R94). -/
def immOf (w : CmdWord) : Imm16 := w.extractLsb' 0 16

/-- R102's procedure, in its order. -/
def decodeCmd (w : CmdWord) : Except DecodeReject Instr :=
  let u := letterOf w
  let imm := immOf w
  if rsvOf w ≠ 0 then .error .reservedBits
  else if u = 0x46#8 then .ok (.setf imm)
  else if u = 0x56#8 then .ok (.setv imm)
  else if u = 0x50#8 then .ok (.setp imm)
  else if u = 0x44#8 then .ok (.setd imm)
  else if u = 0x57#8 then .ok (.lpush imm)
  else if imm ≠ 0 then .error .strayOperand
  else if u = 0x53#8 then .ok .wsin
  else if u = 0x54#8 then .ok .wtri
  else if u = 0x51#8 then .ok .wsqr
  else if u = 0x41#8 then .ok .warb
  else if u = 0x4F#8 then .ok .woff
  else if u = 0x58#8 then .ok .stop
  else if u = 0x47#8 then .ok .regen
  else if u = 0x4C#8 then .ok .lbeg
  else if u = 0x52#8 then .error .reservedLetter
  else .error .unknownLetter

/-- R98: EDV = GBUSY, DONE, PEND, GTYPE[2:0]. -/
def decodeEdv (v : BitVec 6) : Except DecodeReject Instr :=
  let gbusy := v.getLsbD 5
  let done := v.getLsbD 4
  let pend := v.getLsbD 3
  let gtype := v.extractLsb' 0 3
  if gbusy = false then if pend then .ok .gStart else .error .engineWaits
  else if done then .ok .gFin
  else if gtype = 0#3 then .ok .gOff
  else if gtype = 1#3 then .ok .gSine
  else if gtype = 2#3 then .ok .gSqr
  else if gtype = 3#3 then .ok .gTri
  else if gtype = 4#3 then .ok .gArb
  else .error .reservedType

/-- R100, the timer's row: SDV `1fe`. -/
def decodeTimer (v : BitVec 3) : Except DecodeReject Instr :=
  if v.getLsbD 2 then .ok .tFire else .error .clockStopped

/-- R100, the streaming unit's row: SDV `r11`. -/
def decodeStream (v : BitVec 3) : Except DecodeReject Instr :=
  if v.getLsbD 1 && v.getLsbD 0 then .ok .tick else .error .noTick

/-- The decoder, on every code. -/
def decode : Code → Except DecodeReject Instr
  | .cmd w => decodeCmd w
  | .edv v => decodeEdv v
  | .timer v => decodeTimer v
  | .stream v => decodeStream v

/-- A command word with an operand: `CW = match | n` (R91, R131). -/
def cmdWord (base : CmdWord) (imm : Imm16) : CmdWord := base ||| imm.setWidth 32

/-- The code that stands for an operation: its upper-case letter and its operand (R92), or its row's match value
(R98, R100). -/
def encode : Instr → Code
  | .setf n => .cmd (cmdWord 0x46000000 n)
  | .setv n => .cmd (cmdWord 0x56000000 n)
  | .setp n => .cmd (cmdWord 0x50000000 n)
  | .setd n => .cmd (cmdWord 0x44000000 n)
  | .wsin => .cmd 0x53000000
  | .wtri => .cmd 0x54000000
  | .wsqr => .cmd 0x51000000
  | .warb => .cmd 0x41000000
  | .woff => .cmd 0x4F000000
  | .stop => .cmd 0x58000000
  | .regen => .cmd 0x47000000
  | .lbeg => .cmd 0x4C000000
  | .lpush v => .cmd (cmdWord 0x57000000 v)
  | .gStart => .edv 0x08
  | .gOff => .edv 0x20
  | .gSine => .edv 0x21
  | .gSqr => .edv 0x22
  | .gTri => .edv 0x23
  | .gArb => .edv 0x24
  | .gFin => .edv 0x30
  | .tFire => .timer 0x4
  | .tick => .stream 0x3

/-- The code a table word of `nbits` bits stands for: 32 bits a command word, 8 bits or fewer a dispatch vector. The
table writes SDV rows in bits 2..0 and EDV rows in bits 5..0; a value below 8 matches no EDV row, so it is an SDV, read
by the streaming unit when it matches TICK's row and by the timer otherwise (DESIGN CHOICE, log entry 8). -/
def codeOfTableWord (nbits w : Nat) : Option Code :=
  if nbits = 32 then some (.cmd (BitVec.ofNat 32 w))
  else if nbits > 8 then none
  else if w < 8 then
    if BitVec.ofNat 3 w &&& 3#3 = 3#3 then some (.stream (BitVec.ofNat 3 w)) else some (.timer (BitVec.ofNat 3 w))
  else if w < 64 then some (.edv (BitVec.ofNat 6 w))
  else none

/-- The operation the decoder reads from a table word (none where it rejects). -/
def decodeTableWord (nbits w : Nat) : Option Instr :=
  match codeOfTableWord nbits w with
  | none => none
  | some c => (decode c).toOption

end Sys2Proof
end

