-- ==== Sys2Proof/Config.lean ====
section
/-! DEFINITION. What the spec leaves to the instance (spec/00_scope.md R7) and what it leaves open (draws, the
schedule). Every constant here is opaque: no proof can see its value, so a claim holds for every value (DESIGN CHOICE,
log entry 10). -/

namespace Sys2Proof

/-- The four agents of the transition system (R11). -/
inductive Agent where
  | host | engine | timer | streaming
deriving DecidableEq, Repr, Inhabited

namespace Config

/-- The instance's choice of DUTY_MAX, less one (R7: 1 <= DUTY_MAX <= 65535). -/
opaque dutyMaxLessOne : Fin 65535

/-- DUTY_MAX (R7): any number in 1..65535. -/
def dutyMax : Nat := dutyMaxLessOne.val + 1

/-- Which sample-clock frequencies the instance's prescalers can make. -/
opaque sclkChoice : Nat → Bool

/-- SclkRepresentable (R7), a function on 0..120000 with `SclkRepresentable(0) = false`. It is false above 120000,
where the spec does not define it and no reachable FREQ leads (DESIGN CHOICE, log entry 7). -/
def sclkRepresentable (f : Nat) : Bool := decide (0 < f ∧ f ≤ 120000) && sclkChoice f

/-- initOk (R7): whether the peripherals initialised. -/
opaque initOk : Bool

/-- The draw `any16` (R10), a fresh one for each value of the draw counter (DESIGN CHOICE, log entry 2). -/
opaque any16 : Nat → Sample

/-- The value PWM_DUTY shows before the first TICK: R49 gives it none (DESIGN CHOICE, log entry 3). -/
opaque pwmDutyAtReset : Sample

/-- Which agent moves next, once the schedule that State lists is used up: R11 leaves it open (DESIGN CHOICE, log
entry 4). -/
opaque freeTurn : Nat → Agent

end Config

end Sys2Proof
end

