-- ==== Sys2Proof/Machine/State.lean ====
section
/-! DEFINITION. The block's state, whole (R20), the model's own fields beside it (the host's words, the schedule, the
draw counter, the history of output events), the ways a step can stop, and the state after reset (R49, R221). -/

namespace Sys2Proof.Machine

/-- The report codes of R190, by name; their numbers are `reportNumber`. -/
inductive ReportCode where
  | ok | invalidCommand | invalidFrequency | invalidAmplitude | invalidPhase | invalidDuty
  | configError | loadComplete | hardwareFault
deriving DecidableEq, Repr

/-- An output event: a report on RPT (R44, R190), a call of the PWM driver (R182), a write of the trigger line
(R174). -/
inductive Event where
  | report (c : ReportCode)
  | setDutyCycle (v : Sample)
  | trigger (asserted : Bool)
deriving DecidableEq, Repr

/-- A table, WT or AT: the entries some step has written, by index, indices rising. An index that is not listed holds
no value (R77). The spec addresses entries, not bytes (R60, R64), so an entry is the unit (DESIGN CHOICE, log
entry 1). -/
abbrev Memory := List (Nat × Sample)

/-- R20's state, widths of D6; then four fields of the model's own. -/
structure State where
  /-- WTYPE (R21) -/
  wtype : BitVec 3
  /-- FREQ (R22) -/
  freq : BitVec 9
  /-- AMPL (R23) -/
  ampl : BitVec 6
  /-- PHASE (R24) -/
  phase : BitVec 9
  /-- DUTY (R25) -/
  duty : BitVec 7
  /-- MAXDUTY (R26) -/
  maxduty : Sample
  /-- PHASEIDX (R27) -/
  phaseidx : BitVec 9
  /-- SIDX (R30) -/
  sidx : BitVec 9
  /-- LIDX (R32) -/
  lidx : BitVec 9
  /-- GBUSY (R34) -/
  gbusy : Bool
  /-- GIDX (R33) -/
  gidx : BitVec 9
  /-- GTYPE (R34) -/
  gtype : BitVec 3
  /-- PEND (R35) -/
  pend : Bool
  /-- TAINT (R35) -/
  taint : Bool
  /-- SCLK_FREQ (R36) -/
  sclkFreq : BitVec 17
  /-- RUN (R37) -/
  run : Bool
  /-- IE (R38) -/
  ie : Bool
  /-- IF (R39) -/
  ifFlag : Bool
  /-- CFGERR (R40) -/
  cfgerr : Bool
  /-- PWM_DUTY (R41) -/
  pwmDuty : Sample
  /-- TRIG (R42) -/
  trig : Bool
  /-- HALT (R43) -/
  halt : Bool
  /-- WT, the WaveformTable (R46) -/
  wtab : Memory
  /-- AT, the ArbitraryTable (R47) -/
  atab : Memory
  /-- The model's: command words the host has issued and the block has not yet taken, oldest first (DESIGN CHOICE, log
  entry 5). -/
  port : List CmdWord
  /-- The model's: which agent moves at each of the coming steps, next first (DESIGN CHOICE, log entry 4). -/
  turns : List Agent
  /-- The model's: how many free values have been drawn (DESIGN CHOICE, log entry 2). -/
  draws : Nat
  /-- The model's: the event history (R41), newest first (DESIGN CHOICE, log entry 6). -/
  history : List Event
deriving DecidableEq, Repr

/-- The ways the block stops with no successor. -/
inductive Fault where
  /-- Raised by `step` and every meaning when HALT = 1: no operation of any agent is ever enabled (R195, U12: stuck).
  Safe: the spec gives a halted block no step. -/
  | halted
  /-- Raised by TICK and LPUSH when SIDX or LIDX is 400..511, an index no table has. The spec has no such access (R65)
  and no reachable state makes one (DESIGN CHOICE, log entry 12). Safe. -/
  | noSuchEntry
deriving DecidableEq, Repr

/-- The ways an operation has no meaning in a state. -/
inductive Refusal where
  /-- Raised by a row of `exec` that has no meaning yet. Safe. -/
  | notModelled (mnemonic : String)
  /-- Raised by host commands and engine operations while a TICK is enabled: they may not be the next step (R197).
  `step` never raises it. Safe: the operation is not a step there. -/
  | heldByTick
  /-- Raised by an operation whose own guard is false, which cannot be a step (R11; DESIGN CHOICE, log entry 11).
  `step` raises it only in a pass with GIDX above 400, which no reachable state has (log entry 12). Safe. -/
  | guardFalse
  /-- Raised by `step` on GTYPE 5, 6 or 7 in a pass, which the spec says a model must refuse (R99, U9). Safe. -/
  | reservedWaveType
deriving DecidableEq, Repr

/-- What one operation, or one step, answers. -/
abbrev Result := Host.Outcome State Fault Refusal

/-- The state after reset (R49, R221, R222). PWM_DUTY has no value in the spec and shows a free one here. -/
def State.reset : State where
  wtype := 0
  freq := 0
  ampl := 0
  phase := 0
  duty := 0
  maxduty := 0
  phaseidx := 0
  sidx := 0
  lidx := 0
  gbusy := false
  gidx := 0
  gtype := 0
  pend := false
  taint := false
  sclkFreq := 0
  run := false
  ie := false
  ifFlag := false
  cfgerr := false
  pwmDuty := Config.pwmDutyAtReset
  trig := false
  halt := !Config.initOk
  wtab := []
  atab := []
  port := []
  turns := []
  draws := 0
  history := if Config.initOk then [] else [.report .hardwareFault]

end Sys2Proof.Machine
end

