-- ==== Sys2Proof/Machine/Sine.lean ====
section
/-! DEFINITION. The sine law of G.SINE (R164) in exact integers. R164 defines a total function of (MAXDUTY, i) over
the reals and leaves its evaluation to the model: here the quarter wave is a table of sin(k * 0.9 degrees) to 18
decimals, and the sample is the floor R164 asks for. Sys2Proof/Laws/Sine.lean bounds the table's error, which is too
small to change a floor for any 16-bit MAXDUTY (DEDUCED, log entry 9). -/

namespace Sys2Proof.Machine

/-- The table's unit: 10^18 stands for 1. -/
def sineUnit : Nat := 1000000000000000000

/-- sin(k * 0.9 degrees) in units of 10^-18, k = 0..19. -/
def sineFrom0 : List Nat :=
  [0, 15707317311820676, 31410759078128294, 47106450709642661, 62790519529313376,
   78459095727844945, 94108313318514318, 109734311091045268, 125333233564304245, 140901231937582661,
   156434465040230869, 171929100279409547, 187381314585724631, 202787295356512483, 218143241396542552,
   233445363855905412, 248689887164854788, 263873049965372897, 278991106039229252, 294040325232303958]

/-- sin(k * 0.9 degrees) in units of 10^-18, k = 20..39. -/
def sineFrom20 : List Nat :=
  [309016994374947424, 323917418198149414, 338737920245291381, 353474843779257125, 368124552684677959,
   382683432365089772, 397147890634780614, 411514358605108774, 425779291565072649, 439939169855915141,
   453990499739546792, 467929814260573377, 481753674101715275, 495458668432407538, 509041415750371300,
   522498564715948865, 535826794978996618, 549022817998131744, 562083377852130600, 575005252043278566]

/-- sin(k * 0.9 degrees) in units of 10^-18, k = 40..59. -/
def sineFrom40 : List Nat :=
  [587785252292473129, 600420225325884050, 612907053652976493, 625242656335705173, 637423989748689710,
   649448048330183656, 661311865323651877, 673012513509773339, 684547105928688674, 695912796592314325,
   707106781186547524, 718126297763188830, 728968627421411523, 739631094978609697, 750111069630459542,
   760405965600030938, 770513242775789231, 780430407338329736, 790155012375690365, 799684658487090539]

/-- sin(k * 0.9 degrees) in units of 10^-18, k = 60..79. -/
def sineFrom60 : List Nat :=
  [809016994374947424, 818149717425023432, 827080574274561825, 835807361368270258, 844327925502015079,
   852640164354092222, 860742027003943637, 868631514438191248, 876306680043863587, 883765630088693424,
   891006524188367862, 898027575760615631, 904827052466019528, 911403276635445248, 917754625683981141,
   923879532511286756, 929776485888251404, 935444030829867325, 940880768954225472, 946085358827545319]

/-- sin(k * 0.9 degrees) in units of 10^-18, k = 80..100. -/
def sineFrom80 : List Nat :=
  [951056516295153572, 955793014798330127, 960293685676943072, 964557418457798094, 968583161128631119,
   972369920397676602, 975916761938747399, 979222810621765781, 982287250728688681, 985109326154773918,
   987688340595137726, 990023657716557567, 992114701314477831, 993960955455179688, 995561964603080013,
   996917333733127976, 998026728428271562, 998889874961969973, 999506560365731557, 999876632481660599,
   1000000000000000000]

/-- The quarter wave: entry k is sin(2 * pi * k / 400), k = 0..100, in units of 10^-18. -/
def quarterSine : List Nat := sineFrom0 ++ sineFrom20 ++ sineFrom40 ++ sineFrom60 ++ sineFrom80

/-- sin(2 * pi * k / 400) in units of 10^-18, by quadrants, for k = 0..400. -/
def fullSine (k : Nat) : Int :=
  if k ≤ 100 then (quarterSine.getD k 0 : Int)
  else if k ≤ 200 then (quarterSine.getD (200 - k) 0 : Int)
  else if k ≤ 300 then -(quarterSine.getD (k - 200) 0 : Int)
  else -(quarterSine.getD (400 - k) 0 : Int)

/-- R164: `round_half_away((m/2) * sin(2 * pi * (i+1) / 400) + m/2)`, that is the floor of
`(m * sin + m + 1) / 2`, for entry i = 0..399 and MAXDUTY = m. -/
def sampleSine (m i : Nat) : Nat :=
  (((m : Int) * fullSine (i + 1) + (m + 1) * sineUnit) / (2 * sineUnit)).toNat

end Sys2Proof.Machine
end

