-- ==== Sys2Proof/Machine/Operands.lean ====
section
/-! DEFINITION. The constants of R6 and every value an operation computes from its operand and the registers, as exact
naturals with floor division (R9, R169). -/

namespace Sys2Proof.Machine

/-- N (R6): entries in WT and in AT. -/
abbrev N : Nat := 400
/-- TRIG_W (R6). -/
abbrev TRIG_W : Nat := 20
/-- FREQ_MAX (R6). -/
abbrev FREQ_MAX : Nat := 300
/-- AMP_MAX (R6), also maxAmplitude. -/
abbrev AMP_MAX : Nat := 33
/-- PHASE_MAX (R6). -/
abbrev PHASE_MAX : Nat := 360
/-- DUTYPCT_MAX (R6). -/
abbrev DUTYPCT_MAX : Nat := 100
/-- SCLK_MAX (R6): N * FREQ_MAX. -/
abbrev SCLK_MAX : Nat := N * FREQ_MAX

/-- SETV's rescale `(DUTY_MAX * n) / 33` (R132). -/
def dutyCeiling (n : Nat) : Nat := Config.dutyMax * n / AMP_MAX

/-- SETP stores 360 as 0 (R133). -/
def normalPhase (n : Nat) : Nat := if n = PHASE_MAX then 0 else n

/-- SETP's index `(p * 400) / 360` (R133). -/
def phaseToIndex (p : Nat) : Nat := p * N / 360

/-- `dutyIndex = (DUTY * 400) / 100` (R162). -/
def dutyIndex (duty : Nat) : Nat := duty * N / 100

/-- The Off table's entry (R163). -/
def sampleOff : Nat := 0

/-- The square table's entry i for MAXDUTY = m (R165). -/
def sampleSquare (m duty i : Nat) : Nat := if i < dutyIndex duty then m else 0

/-- The triangle table's entry i for MAXDUTY = m (R166): each divisor is evaluated only in its own branch. -/
def sampleTriangle (m duty i : Nat) : Nat :=
  if i < dutyIndex duty then i * m / dutyIndex duty
  else m - m * (i - dutyIndex duty) / (N - dutyIndex duty)

/-- The arbitrary table's entry, from AT's entry a (R167). -/
def sampleArbitrary (a ampl : Nat) : Nat := a * ampl / AMP_MAX

/-- The requested sample-clock frequency `400 * FREQ` (R168). -/
def clockRequest (freq : Nat) : Nat := N * freq

/-- A wrapping counter's next value, `(i + 1) mod 400` (R30, R32). -/
def nextIndex (i : Nat) : Nat := (i + 1) % N

/-- TICK's `d`, the distance of index s past the window's start p (R182, R9). -/
def windowDistance (s p : Nat) : Nat := (s + N - p) % N

/-- Whether TICK asserts the trigger: the closed window of R182. -/
def inWindow (s p : Nat) : Bool := decide (windowDistance s p ≤ TRIG_W)

end Sys2Proof.Machine
end

