-- ==== Sys2Proof/Machine/Flags.lean ====
section
/-! DEFINITION. The one-bit registers (R45): the STATUS view, the two dispatch vectors (R98, R100), the tick's guard
(R197) and the taint rule (R170). -/

namespace Sys2Proof.Machine

/-- One flag as a bit of a view. -/
def bit (b : Bool) : BitVec 1 := BitVec.ofBool b

/-- STATUS (R45), a view: HALT, TAINT, PEND, GBUSY, CFGERR, TRIG, IF, IE, RUN, from bit 8 down. -/
def State.status (s : State) : BitVec 9 :=
  bit s.halt ++ bit s.taint ++ bit s.pend ++ bit s.gbusy ++ bit s.cfgerr ++ bit s.trig ++ bit s.ifFlag ++ bit s.ie
    ++ bit s.run

/-- DONE (R98): 1 exactly when GIDX = 400. -/
def State.done (s : State) : Bool := s.gidx.toNat == N

/-- EDV (R98), a view: GBUSY, DONE, PEND, GTYPE. -/
def State.edv (s : State) : BitVec 6 := bit s.gbusy ++ bit s.done ++ bit s.pend ++ s.gtype

/-- SDV (R100), a view: RUN, IF, IE. -/
def State.sdv (s : State) : BitVec 3 := bit s.run ++ bit s.ifFlag ++ bit s.ie

/-- TICK is enabled: HALT = 0, IF = 1, IE = 1 (R182, R197). -/
def State.tickEnabled (s : State) : Bool := !s.halt && s.ifFlag && s.ie

/-- `if GBUSY == 1 then TAINT <- 1`, the clause of R170. -/
def State.taintIfBusy (s : State) : State := { s with taint := s.taint || s.gbusy }

/-- The 4-bit number of a report code (R190). -/
def reportNumber : ReportCode → BitVec 4
  | .ok => 0
  | .invalidCommand => 1
  | .invalidFrequency => 2
  | .invalidAmplitude => 3
  | .invalidPhase => 4
  | .invalidDuty => 5
  | .configError => 6
  | .loadComplete => 7
  | .hardwareFault => 8

end Sys2Proof.Machine
end

