-- ==== Sys2Proof/Machine/Ops.lean ====
section
/-! DEFINITION. The operations the meanings share: draws, table reads and writes (R62, R63, R77), output events and
reports (R190), the guards (R11, R130, R197), the tick's return (R202), and whose turn it is. -/

namespace Sys2Proof.Machine

/-- What entry i holds, if some step has written it (R62). -/
def Memory.get? : Memory → Nat → Option Sample
  | [], _ => none
  | (j, w) :: rest, i => if i = j then some w else Memory.get? rest i

/-- `T[i] <- v` (R63), keeping the indices rising. -/
def Memory.set : Memory → Nat → Sample → Memory
  | [], i, v => [(i, v)]
  | (j, w) :: rest, i, v =>
    if i < j then (i, v) :: (j, w) :: rest
    else if i = j then (i, v) :: rest
    else (j, w) :: Memory.set rest i v

/-- Indices rise strictly from `lo` and stay below 400. -/
def Memory.risesFrom : Nat → Memory → Bool
  | _, [] => true
  | lo, (i, _) :: rest => decide (lo ≤ i) && decide (i < N) && Memory.risesFrom (i + 1) rest

/-- A table's canonical form. An unlisted entry holds no value, so no listed entry can repeat what it reads as. -/
def Memory.wf (m : Memory) : Bool := m.risesFrom 0

/-- A use of `any16` (R10): the next free value, and the state with the draw counter advanced. -/
def State.draw (s : State) : Sample × State := (Config.any16 s.draws, { s with draws := s.draws + 1 })

/-- `WT[i]` (R62): the value last written, or a draw if nothing has been (R77). -/
def State.readWT (s : State) (i : Nat) : Sample × State :=
  match s.wtab.get? i with
  | some v => (v, s)
  | none => s.draw

/-- `AT[i]` (R62), likewise. -/
def State.readAT (s : State) (i : Nat) : Sample × State :=
  match s.atab.get? i with
  | some v => (v, s)
  | none => s.draw

/-- `WT[i] <- v` (R63). -/
def State.writeWT (s : State) (i : Nat) (v : Sample) : State := { s with wtab := s.wtab.set i v }

/-- `AT[i] <- v` (R63). -/
def State.writeAT (s : State) (i : Nat) (v : Sample) : State := { s with atab := s.atab.set i v }

/-- Emit one output event. -/
def State.emit (s : State) (e : Event) : State := { s with history := e :: s.history }

/-- `report(c)` (R190), the block's only exception: it emits the code, changes nothing else, transfers no control. -/
def State.report (s : State) (c : ReportCode) : State := s.emit (.report c)

/-- A command carried out: its last action is the report OK (R130). -/
def accept (s : State) : Result := .next (s.report .ok)

/-- A command rejected: one report and no other change (R130, R192). -/
def reject (c : ReportCode) (s : State) : Result := .next (s.report c)

/-- The tick's return (R202): `IF <- 0`. Its entry saves nothing, changes no mode and no mask (R201), so there is no
entry operation: taking the tick is TICK itself. -/
def State.tickReturn (s : State) : State := { s with ifFlag := false }

/-- A host command or an engine operation: it can be a step when HALT = 0, no TICK is enabled and its own guard holds
(R11, R130, R197). -/
def taskStep (s : State) (own : Bool) (r : Result) : Result :=
  if s.halt then .fault .halted
  else if s.tickEnabled then .refused .heldByTick
  else if own then r
  else .refused .guardFalse

/-- T.FIRE or TICK: the priority rule does not hold it back (R181, R182). -/
def hardwareStep (s : State) (own : Bool) (r : Result) : Result :=
  if s.halt then .fault .halted
  else if own then r
  else .refused .guardFalse

/-- An access to entry i: only 0..399 exist (R60). -/
def withEntry (i : Nat) (r : Result) : Result := if i < N then r else .fault .noSuchEntry

/-- The guard the five table generators share, beside HALT and the tick: GBUSY = 1, GIDX <= 399, GTYPE = their code
(42_synthesis_ops.md section 2). -/
def State.generating (s : State) (code : BitVec 3) : Bool :=
  s.gbusy && decide (s.gidx.toNat < N) && s.gtype == code

/-- The tail the generators share: `WT[GIDX] <- (if TAINT == 1 then any16 else v)`, `GIDX <- GIDX + 1` (R163, R170). -/
def State.putSample (s : State) (v : Nat) : State :=
  if s.taint then
    { (s.draw.2.writeWT s.gidx.toNat s.draw.1) with gidx := BitVec.ofNat 9 (s.gidx.toNat + 1) }
  else { (s.writeWT s.gidx.toNat (BitVec.ofNat 16 v)) with gidx := BitVec.ofNat 9 (s.gidx.toNat + 1) }

/-- A wave-type command's effect: `WTYPE <- code` and the taint clause (R135 to R139). -/
def State.selectWave (s : State) (code : BitVec 3) : State := { s with wtype := code }.taintIfBusy

/-- The agent whose turn it is: the schedule's next, or a free choice when it lists none (R11). -/
def State.turn (s : State) : Agent :=
  match s.turns with
  | a :: _ => a
  | [] => Config.freeTurn s.draws

/-- The turn is over. -/
def State.endTurn (s : State) : State :=
  match s.turns with
  | _ :: rest => { s with turns := rest }
  | [] => { s with draws := s.draws + 1 }

/-- An agent with no enabled operation waits: its turn passes and nothing else changes (R98, R207, R235). -/
def idle (s : State) : Result := .next s.endTurn

end Sys2Proof.Machine
end

