-- ==== Sys2Proof/Machine/Control.lean ====
section
/-! DEFINITION. The control and table-load commands (spec/41_control_load_ops.md). -/

namespace Sys2Proof.Machine

/-- STOP (R150). -/
def execStop (s : State) : Result := taskStep s true (accept { s with run := false })

/-- REGEN (R151). -/
def execRegen (s : State) : Result := taskStep s true (accept { s with pend := true })

/-- LBEG (R152). -/
def execLbeg (s : State) : Result := taskStep s true (accept { s with lidx := 0 })

/-- LPUSH v (R153). -/
def execLpush (v : Imm16) (s : State) : Result :=
  taskStep s true <|
    withEntry s.lidx.toNat <|
      let s1 := { (s.writeAT s.lidx.toNat v).taintIfBusy with lidx := BitVec.ofNat 9 (nextIndex s.lidx.toNat) }
      if s.lidx.toNat = 399 then .next (s1.report .loadComplete) else accept s1

end Sys2Proof.Machine
end

