-- ==== Sys2Proof/Machine/Engine.lean ====
section
/-! DEFINITION. The synthesis engine's operations (spec/42_synthesis_ops.md). -/

namespace Sys2Proof.Machine

/-- G.START (R161). -/
def execGStart (s : State) : Result :=
  taskStep s (!s.gbusy && s.pend)
    (.next { s with pend := false, gbusy := true, gidx := 0, gtype := s.wtype, taint := false })

/-- G.OFF (R163). -/
def execGOff (s : State) : Result := taskStep s (s.generating 0) (.next (s.putSample sampleOff))

/-- G.SINE (R164). -/
def execGSine (s : State) : Result :=
  taskStep s (s.generating 1) (.next (s.putSample (sampleSine s.maxduty.toNat s.gidx.toNat)))

/-- G.SQR (R165). -/
def execGSqr (s : State) : Result :=
  taskStep s (s.generating 2) (.next (s.putSample (sampleSquare s.maxduty.toNat s.duty.toNat s.gidx.toNat)))

/-- G.TRI (R166). -/
def execGTri (s : State) : Result :=
  taskStep s (s.generating 3) (.next (s.putSample (sampleTriangle s.maxduty.toNat s.duty.toNat s.gidx.toNat)))

/-- G.ARB (R167). The read of AT is a draw of its own when nothing has written the entry (R77). -/
def execGArb (s : State) : Result :=
  taskStep s (s.generating 4) <|
    let a := s.readAT s.gidx.toNat
    .next (a.2.putSample (sampleArbitrary a.1.toNat s.ampl.toNat))

/-- G.FIN (R168). -/
def execGFin (s : State) : Result :=
  taskStep s (s.gbusy && s.done) <|
    let f := clockRequest s.freq.toNat
    if Config.sclkRepresentable f then
      .next { s with sclkFreq := BitVec.ofNat 17 f, cfgerr := false, ie := true, run := true, gbusy := false }
    else .next { s.report .configError with cfgerr := true, gbusy := false }

end Sys2Proof.Machine
end

