-- ==== Sys2Proof/Machine/Param.lean ====
section
/-! DEFINITION. The parameter commands (spec/40_param_ops.md). -/

namespace Sys2Proof.Machine

/-- SETF n (R131). -/
def execSetf (n : Imm16) (s : State) : Result :=
  taskStep s true <|
    if n.toNat > FREQ_MAX then reject .invalidFrequency s
    else
      let s1 := { s with freq := BitVec.ofNat 9 n.toNat }
      accept (if n.toNat = 0 then { s1 with wtype := 0 }.taintIfBusy else s1)

/-- SETV n (R132). -/
def execSetv (n : Imm16) (s : State) : Result :=
  taskStep s true <|
    if n.toNat > AMP_MAX then reject .invalidAmplitude s
    else
      let s1 := { s with ampl := BitVec.ofNat 6 n.toNat, maxduty := BitVec.ofNat 16 (dutyCeiling n.toNat) }
      accept (if n.toNat = 0 then { s1 with wtype := 0 } else s1).taintIfBusy

/-- SETP n (R133). -/
def execSetp (n : Imm16) (s : State) : Result :=
  taskStep s true <|
    if n.toNat > PHASE_MAX then reject .invalidPhase s
    else
      let p := normalPhase n.toNat
      accept { s with phase := BitVec.ofNat 9 p, phaseidx := BitVec.ofNat 9 (phaseToIndex p) }

/-- SETD n (R134). -/
def execSetd (n : Imm16) (s : State) : Result :=
  taskStep s true <|
    if n.toNat > DUTYPCT_MAX then reject .invalidDuty s
    else accept { s with duty := BitVec.ofNat 7 n.toNat }.taintIfBusy

/-- WSIN (R135). -/
def execWsin (s : State) : Result := taskStep s true (accept (s.selectWave 1))

/-- WTRI (R136). -/
def execWtri (s : State) : Result := taskStep s true (accept (s.selectWave 3))

/-- WSQR (R137). -/
def execWsqr (s : State) : Result := taskStep s true (accept (s.selectWave 2))

/-- WARB (R138). -/
def execWarb (s : State) : Result := taskStep s true (accept (s.selectWave 4))

/-- WOFF (R139). -/
def execWoff (s : State) : Result := taskStep s true (accept (s.selectWave 0))

end Sys2Proof.Machine
end

