-- ==== Sys2Proof/Machine/Stream.lean ====
section
/-! DEFINITION. The streaming operations (spec/43_stream_ops.md). -/

namespace Sys2Proof.Machine

/-- T.FIRE (R181). -/
def execTFire (s : State) : Result := hardwareStep s s.run (.next { s with ifFlag := true })

/-- TICK's four actions on the value v it read (R182): output the entry, drive the trigger, advance SIDX, return. -/
def State.serveTick (s : State) (v : Sample) : State :=
  let t := inWindow s.sidx.toNat s.phaseidx.toNat
  let s1 := { s with pwmDuty := v }.emit (.setDutyCycle v)
  let s2 := { s1 with trig := t }.emit (.trigger t)
  { s2 with sidx := BitVec.ofNat 9 (nextIndex s.sidx.toNat) }.tickReturn

/-- TICK (R182). -/
def execTick (s : State) : Result :=
  hardwareStep s (s.ifFlag && s.ie) <|
    withEntry s.sidx.toNat <|
      let r := s.readWT s.sidx.toNat
      .next (r.2.serveTick r.1)

end Sys2Proof.Machine
end

