-- ==== Sys2Proof/Machine/Dispatch.lean ====
section
/-! DEFINITION. The one dispatch from an operation to its meaning. -/

namespace Sys2Proof.Machine

def exec (i : Instr) (s : State) : Host.Outcome State Fault Refusal :=
  match i with
  | .setf n => Sys2Proof.Machine.execSetf n s
  | .setv n => Sys2Proof.Machine.execSetv n s
  | .setp n => Sys2Proof.Machine.execSetp n s
  | .setd n => Sys2Proof.Machine.execSetd n s
  | .wsin => Sys2Proof.Machine.execWsin s
  | .wtri => Sys2Proof.Machine.execWtri s
  | .wsqr => Sys2Proof.Machine.execWsqr s
  | .warb => Sys2Proof.Machine.execWarb s
  | .woff => Sys2Proof.Machine.execWoff s
  | .stop => Sys2Proof.Machine.execStop s
  | .regen => Sys2Proof.Machine.execRegen s
  | .lbeg => Sys2Proof.Machine.execLbeg s
  | .lpush v => Sys2Proof.Machine.execLpush v s
  | .gStart => Sys2Proof.Machine.execGStart s
  | .gOff => Sys2Proof.Machine.execGOff s
  | .gSine => Sys2Proof.Machine.execGSine s
  | .gSqr => Sys2Proof.Machine.execGSqr s
  | .gTri => Sys2Proof.Machine.execGTri s
  | .gArb => Sys2Proof.Machine.execGArb s
  | .gFin => Sys2Proof.Machine.execGFin s
  | .tFire => Sys2Proof.Machine.execTFire s
  | .tick => Sys2Proof.Machine.execTick s

end Sys2Proof.Machine
end

