-- ==== Sys2Proof/Machine/Turns.lean ====
section
/-! DEFINITION. What each agent does on its turn: it decodes its command word or its dispatch vector and runs the
operation, or waits. A step is one turn (R11), under the priority rule (R197). -/

namespace Sys2Proof.Machine

/-- The host's turn: it presents its oldest command word. A word that matches no row is INVALID_COMMAND and changes no
state (R96). With no word, the host waits. -/
def hostTurn (s : State) : Result :=
  match s.port with
  | [] => idle s
  | w :: rest =>
    match decode (.cmd w) with
    | .ok i => exec i { s.endTurn with port := rest }
    | .error _ => reject .invalidCommand { s.endTurn with port := rest }

/-- The engine's turn: the operation whose pattern matches EDV, or none (R98). A reserved type code is refused (R99). -/
def engineTurn (s : State) : Result :=
  match decode (.edv s.edv) with
  | .ok i => exec i s.endTurn
  | .error .reservedType => .refused .reservedWaveType
  | .error _ => idle s

/-- The timer's turn (R100, R181). -/
def timerTurn (s : State) : Result :=
  match decode (.timer s.sdv) with
  | .ok i => exec i s.endTurn
  | .error _ => idle s

/-- The streaming unit's turn (R100, R182). -/
def streamTurn (s : State) : Result :=
  match decode (.stream s.sdv) with
  | .ok i => exec i s.endTurn
  | .error _ => idle s

/-- One step. HALT = 1 enables nothing (R195). While a TICK is enabled, a turn of the host or of the engine is not
taken: the TICK runs in its place and that agent keeps its turn (R197). -/
def takeTurn (s : State) : Result :=
  if s.halt then .fault .halted
  else
    match s.turn with
    | .host => if s.tickEnabled then exec .tick s else hostTurn s
    | .engine => if s.tickEnabled then exec .tick s else engineTurn s
    | .timer => timerTurn s
    | .streaming => streamTurn s

/-- The state in which the very next step reads the code c: HALT = 0, no TICK held before it unless it is TICK's own
code, the turn is its agent's, and the port or the dispatch vector shows it. -/
def State.present (s : State) (c : Code) : State :=
  match c with
  | .cmd w =>
    { s with halt := false, ifFlag := s.ifFlag && !s.ie, turns := .host :: s.turns, port := w :: s.port }
  | .edv v =>
    { s with
      halt := false, ifFlag := s.ifFlag && !s.ie, turns := .engine :: s.turns
      gbusy := v.getLsbD 5
      gidx := if v.getLsbD 4 then BitVec.ofNat 9 N else if s.gidx.toNat < N then s.gidx else 0
      pend := v.getLsbD 3
      gtype := v.extractLsb' 0 3 }
  | .timer v =>
    { s with halt := false, turns := .timer :: s.turns, run := v.getLsbD 2, ifFlag := v.getLsbD 1, ie := v.getLsbD 0 }
  | .stream v =>
    { s with
      halt := false, turns := .streaming :: s.turns, run := v.getLsbD 2, ifFlag := v.getLsbD 1, ie := v.getLsbD 0 }

end Sys2Proof.Machine
end

