-- ==== Sys2Proof/Machine/Step.lean ====
section
/-! DEFINITION. One step of the block, and the state whose next step reads a given word. -/

namespace Sys2Proof.Machine

/-- One step (R11, R70). -/
def step (s : State) : Host.Outcome State Fault Refusal := takeTurn s

/-- `s` with a table word stored where its agent reads it: a command word at the head of the command port, a dispatch
vector in the state bits it is a view of (R98, R100); HALT = 0 and the turn is that agent's (DESIGN CHOICE, log
entry 8). -/
def State.withFetchWord (s : State) (nbits w : Nat) : State :=
  match codeOfTableWord nbits w with
  | some c => s.present c
  | none => s

end Sys2Proof.Machine
end

