-- ==== Sys2Proof/Safety.lean ====
section
/-! DEFINITION. What counts as a good state and a safe run, in the terms the statements use. -/

namespace Sys2Proof

/-- The thirteen host commands (R90, R92). -/
def Instr.isHost : Instr → Bool
  | .setf _ | .setv _ | .setp _ | .setd _ | .lpush _ => true
  | .wsin | .wtri | .wsqr | .warb | .woff | .stop | .regen | .lbeg => true
  | .gStart | .gOff | .gSine | .gSqr | .gTri | .gArb | .gFin | .tFire | .tick => false

/-- The seven engine operations (R90). -/
def Instr.isEngine : Instr → Bool
  | .gStart | .gOff | .gSine | .gSqr | .gTri | .gArb | .gFin => true
  | .setf _ | .setv _ | .setp _ | .setd _ | .lpush _ => false
  | .wsin | .wtri | .wsqr | .warb | .woff | .stop | .regen | .lbeg | .tFire | .tick => false

/-- The five table generators (42_synthesis_ops.md section 2). -/
def Instr.isGenerator : Instr → Bool
  | .gOff | .gSine | .gSqr | .gTri | .gArb => true
  | .setf _ | .setv _ | .setp _ | .setd _ | .lpush _ => false
  | .wsin | .wtri | .wsqr | .warb | .woff | .stop | .regen | .lbeg => false
  | .gStart | .gFin | .tFire | .tick => false

/-- R170's list: the accepted commands that change what a running pass reads. -/
def Instr.breaksPass : Instr → Bool
  | .setf n => n.toNat == 0
  | .setv n => decide (n.toNat ≤ 33)
  | .setd n => decide (n.toNat ≤ 100)
  | .wsin | .wtri | .wsqr | .warb | .woff | .lpush _ => true
  | .setp _ | .stop | .regen | .lbeg => false
  | .gStart | .gOff | .gSine | .gSqr | .gTri | .gArb | .gFin | .tFire | .tick => false

namespace Machine

/-- The parameter registers' invariant (R28). -/
structure State.ParamInv (s : State) : Prop where
  wtype_le : s.wtype.toNat ≤ 4
  freq_le : s.freq.toNat ≤ 300
  ampl_le : s.ampl.toNat ≤ 33
  phase_le : s.phase.toNat ≤ 359
  duty_le : s.duty.toNat ≤ 100
  maxduty_eq : s.maxduty.toNat = Config.dutyMax * s.ampl.toNat / 33
  phaseidx_eq : s.phaseidx.toNat = s.phase.toNat * 400 / 360

/-- The counters stay on the tables, and GTYPE is a type (R30, R32, R33, R99). -/
structure State.IndexInv (s : State) : Prop where
  sidx_lt : s.sidx.toNat < 400
  lidx_lt : s.lidx.toNat < 400
  gidx_le : s.gidx.toNat ≤ 400
  gtype_le : s.gtype.toNat ≤ 4

/-- The sample clock: its range (R36), and that it runs and ticks only when its interrupt is enabled (R181). -/
structure State.ClockInv (s : State) : Prop where
  sclk_le : s.sclkFreq.toNat ≤ 120000
  run_ie : s.run = true → s.ie = true
  if_ie : s.ifFlag = true → s.ie = true
  run_clock : s.run = true → 0 < s.sclkFreq.toNat

/-- The tables: canonical form, and every WT entry that a TICK or a running pass may rely on has been written (R46). -/
structure State.TableInv (s : State) : Prop where
  wtab_wf : s.wtab.wf = true
  atab_wf : s.atab.wf = true
  pass_written : s.gbusy = true → ∀ i, i < s.gidx.toNat → (s.wtab.get? i).isSome = true
  tick_written : s.ie = true → ∀ i, i < 400 → (s.wtab.get? i).isSome = true

/-- The invariant of the block. -/
structure State.Inv (s : State) : Prop where
  param : s.ParamInv
  index : s.IndexInv
  clock : s.ClockInv
  table : s.TableInv

/-- The value the rule of the latched type gives entry i from the registers as they are (R163 to R167); none where the
type is reserved, or Arbitrary over an AT entry nothing has written. -/
def State.entryLaw (s : State) (i : Nat) : Option Nat :=
  if s.gtype = 0 then some sampleOff
  else if s.gtype = 1 then some (sampleSine s.maxduty.toNat i)
  else if s.gtype = 2 then some (sampleSquare s.maxduty.toNat s.duty.toNat i)
  else if s.gtype = 3 then some (sampleTriangle s.maxduty.toNat s.duty.toNat i)
  else if s.gtype = 4 then (s.atab.get? i).map (fun a => sampleArbitrary a.toNat s.ampl.toNat)
  else none

/-- In an untainted pass every entry already rewritten holds what its rule gives (R71, R171). -/
def State.CleanPrefix (s : State) : Prop :=
  s.gbusy = true → s.taint = false →
    ∀ i, i < s.gidx.toNat → ∀ v, s.entryLaw i = some v → s.wtab.get? i = some (BitVec.ofNat 16 v)

/-- t is s after one generator step that stored v in WT[GIDX] and drew k free values: every other entry reads as
before, GIDX is one more, and nothing else changed. -/
def StoredSample (s t : State) (v : Sample) (k : Nat) : Prop :=
  t.wtab.get? s.gidx.toNat = some v ∧
  (∀ a, a ≠ s.gidx.toNat → t.wtab.get? a = s.wtab.get? a) ∧
  t = { s with wtab := t.wtab, gidx := BitVec.ofNat 9 (s.gidx.toNat + 1), draws := s.draws + k }

end Machine

end Sys2Proof
end

