-- ==== Sys2Proof/Certificates/Slice0/Obligations.lean ====
section
/-! DEFINITION. The statements for the provers. Each docstring cites the rule of spec/ it formalises; where a clause is
the model's own choice it says so and names the log entry. -/

open Sys2Proof Sys2Proof.Machine

/-! ## Decoding and encoding -/

/-- Words written out from R92, R98 and R100 and the vectors of 95_test_vectors.md section 2.1. -/
def Obligations.SpecVectorsDecode : Prop :=
  decode (.cmd 0x46000096) = .ok (.setf 150) ∧ decode (.cmd 0x66000096) = .ok (.setf 150) ∧
  decode (.cmd 0x56000021) = .ok (.setv 33) ∧ decode (.cmd 0x71000000) = .ok .wsqr ∧
  decode (.cmd 0x58000000) = .ok .stop ∧ decode (.cmd 0x7700FFFF) = .ok (.lpush 65535) ∧
  decode (.cmd 0x46010096) = .error .reservedBits ∧ decode (.cmd 0x53000001) = .error .strayOperand ∧
  decode (.cmd 0x52000000) = .error .reservedLetter ∧ decode (.cmd 0x5A000000) = .error .unknownLetter ∧
  decode (.edv 0b011001) = .ok .gStart ∧ decode (.edv 0b101010) = .ok .gSqr ∧
  decode (.edv 0b110100) = .ok .gFin ∧ decode (.edv 0b010001) = .error .engineWaits ∧
  decode (.edv 0b100101) = .error .reservedType ∧
  decode (.timer 0b101) = .ok .tFire ∧ decode (.stream 0b111) = .ok .tick ∧ decode (.stream 0b101) = .error .noTick

/-- Every operation, with its operand at every value, is what its own code decodes to (R92, R94, R98, R100). -/
def Obligations.DecodeInvertsEncode : Prop := ∀ i : Instr, decode (encode i) = .ok i

/-- The decoder is the opcode table: a code decodes to an operation exactly when it matches that operation's row and
the operand is CW[15:0] as it stands (R92, R94, R98, R100). -/
def Obligations.DecodeIsTheOpcodeTable : Prop :=
  ∀ (c : Code) (i : Instr), decode c = .ok i ↔
    i.row.matchesCode c = true ∧ ∀ n, i.operand = some n → n = c.bits.setWidth 16

/-- R92: the rows are disjoint; here for the dispatch vectors' rows as well. -/
def Obligations.OpcodeRowsAreDisjoint : Prop :=
  ∀ (c : Code) (q r : OpRow), q ∈ opRows → r ∈ opRows →
    q.matchesCode c = true → r.matchesCode c = true → q = r

/-- R93: CW[29] does not change what a word decodes to. -/
def Obligations.LetterCaseIsIgnored : Prop :=
  ∀ w : CmdWord, decode (.cmd (w ^^^ 0x20000000)) = decode (.cmd w)

/-! ## What a step runs -/

/-- R96: a word that matches no row of R92 changes no state and is reported. That the port and the schedule move on is
the model's own (log entries 4, 5). -/
def Obligations.UnmatchedWordIsInvalidCommand : Prop :=
  ∀ (s : State) (w : CmdWord) (rest : List CmdWord),
    s.halt = false → (s.ifFlag && s.ie) = false → s.turn = .host → s.port = w :: rest →
    (∀ r ∈ hostRows, (w &&& r.mask) ≠ r.pattern) →
    step s = .next { s.endTurn with port := rest, history := .report .invalidCommand :: s.history }

/-- On the host's turn a step takes the oldest command word off the port and runs what it decodes to. The port and
the schedule are the model's own (log entries 4, 5). -/
def Obligations.StepRunsTheHostCommand : Prop :=
  ∀ (s : State) (w : CmdWord) (rest : List CmdWord) (i : Instr),
    s.halt = false → (s.ifFlag && s.ie) = false → s.turn = .host → s.port = w :: rest → decode (.cmd w) = .ok i →
    step s = exec i { s.endTurn with port := rest }

/-- On the engine's turn a step runs the operation EDV selects (R98). The schedule is the model's own (log entry 4). -/
def Obligations.StepRunsTheEngineOperation : Prop :=
  ∀ (s : State) (i : Instr),
    s.halt = false → (s.ifFlag && s.ie) = false → s.turn = .engine → decode (.edv s.edv) = .ok i →
    step s = exec i s.endTurn

/-- On the timer's turn a step is T.FIRE when RUN = 1, on the streaming unit's turn TICK when IF = 1 and IE = 1
(R100). The schedule is the model's own (log entry 4). -/
def Obligations.StepRunsTheStreamOperation : Prop :=
  ∀ s : State, s.halt = false →
    (s.turn = .timer → s.run = true → step s = exec .tFire s.endTurn) ∧
    (s.turn = .streaming → s.ifFlag = true → s.ie = true → step s = exec .tick s.endTurn)

/-- R197: an enabled TICK excludes every host command and engine operation. That the step taken on such a turn is the
TICK, and that the turn stays, is the model's form of it (log entry 4). -/
def Obligations.EnabledTickHasPriority : Prop :=
  ∀ s : State, s.halt = false → s.ifFlag = true → s.ie = true →
    (s.turn = .host ∨ s.turn = .engine → step s = exec .tick s) ∧
    (∀ i, i ≠ .tFire → i ≠ .tick → exec i s = .refused .heldByTick) ∧
    (s.sidx.toNat < 400 → ∃ t, exec .tick s = .next t) ∧
    (s.run = true → ∃ t, exec .tFire s = .next t)

/-- An agent with no enabled operation waits: its turn passes and nothing else changes (R98, R207, R235; that a waiting
turn is a step is the model's choice, log entry 4). -/
def Obligations.WaitingAgentChangesNothing : Prop :=
  ∀ s : State, s.halt = false →
    (s.turn = .host → (s.ifFlag && s.ie) = false → s.port = [] → step s = .next s.endTurn) ∧
    (s.turn = .engine → (s.ifFlag && s.ie) = false → s.gbusy = false → s.pend = false → step s = .next s.endTurn) ∧
    (s.turn = .timer → s.run = false → step s = .next s.endTurn) ∧
    (s.turn = .streaming → (s.ifFlag && s.ie) = false → step s = .next s.endTurn)

/-- R43: HALT is set at reset from initOk, never changes, and when it is 1 no operation of any agent is enabled. -/
def Obligations.HaltIsFixedAndFatal : Prop :=
  State.reset.halt = (!Config.initOk) ∧
  (∀ s t, step s = .next t → t.halt = s.halt) ∧
  (∀ i s t, exec i s = .next t → t.halt = s.halt) ∧
  (∀ s, s.halt = true → step s = .fault .halted ∧ ∀ i, exec i s = .fault .halted)

/-- R99: a pass whose type code is 5, 6 or 7 is refused. -/
def Obligations.ReservedTypeIsRefused : Prop :=
  ∀ s : State, s.halt = false → (s.ifFlag && s.ie) = false → s.turn = .engine →
    s.gbusy = true → s.gidx.toNat ≠ 400 → 5 ≤ s.gtype.toNat → step s = .refused .reservedWaveType

/-! ## Parameter commands -/

/-- R131. -/
def Obligations.SetfStoresTheFrequency : Prop :=
  (∀ n : Imm16, decode (.cmd (0x46000000#32 ||| n.setWidth 32)) = .ok (.setf n)) ∧
  ∀ (n : Imm16) (s : State), s.halt = false → (s.ifFlag && s.ie) = false →
    (300 < n.toNat →
      exec (.setf n) s = .next { s with history := .report .invalidFrequency :: s.history }) ∧
    (n.toNat = 0 →
      exec (.setf n) s = .next
        { s with freq := 0, wtype := 0, taint := s.taint || s.gbusy, history := .report .ok :: s.history }) ∧
    (0 < n.toNat → n.toNat ≤ 300 →
      exec (.setf n) s = .next { s with freq := BitVec.ofNat 9 n.toNat, history := .report .ok :: s.history })

/-- R132. -/
def Obligations.SetvRescalesTheDutyCeiling : Prop :=
  (∀ n : Imm16, decode (.cmd (0x56000000#32 ||| n.setWidth 32)) = .ok (.setv n)) ∧
  (∀ n : Nat, n ≤ 33 → (BitVec.ofNat 16 (Config.dutyMax * n / 33)).toNat = Config.dutyMax * n / 33 ∧
    Config.dutyMax * n / 33 ≤ Config.dutyMax) ∧
  ∀ (n : Imm16) (s : State), s.halt = false → (s.ifFlag && s.ie) = false →
    (33 < n.toNat →
      exec (.setv n) s = .next { s with history := .report .invalidAmplitude :: s.history }) ∧
    (n.toNat = 0 →
      exec (.setv n) s = .next
        { s with ampl := 0, maxduty := 0, wtype := 0, taint := s.taint || s.gbusy,
                 history := .report .ok :: s.history }) ∧
    (0 < n.toNat → n.toNat ≤ 33 →
      exec (.setv n) s = .next
        { s with ampl := BitVec.ofNat 6 n.toNat, maxduty := BitVec.ofNat 16 (Config.dutyMax * n.toNat / 33),
                 taint := s.taint || s.gbusy, history := .report .ok :: s.history })

/-- R133. -/
def Obligations.SetpMovesTheTriggerWindow : Prop :=
  (∀ n : Imm16, decode (.cmd (0x50000000#32 ||| n.setWidth 32)) = .ok (.setp n)) ∧
  ∀ (n : Imm16) (s : State), s.halt = false → (s.ifFlag && s.ie) = false →
    (360 < n.toNat →
      exec (.setp n) s = .next { s with history := .report .invalidPhase :: s.history }) ∧
    (n.toNat = 360 →
      exec (.setp n) s = .next { s with phase := 0, phaseidx := 0, history := .report .ok :: s.history }) ∧
    (n.toNat < 360 →
      exec (.setp n) s = .next
        { s with phase := BitVec.ofNat 9 n.toNat, phaseidx := BitVec.ofNat 9 (n.toNat * 400 / 360),
                 history := .report .ok :: s.history })

/-- R134. -/
def Obligations.SetdStoresTheDuty : Prop :=
  (∀ n : Imm16, decode (.cmd (0x44000000#32 ||| n.setWidth 32)) = .ok (.setd n)) ∧
  ∀ (n : Imm16) (s : State), s.halt = false → (s.ifFlag && s.ie) = false →
    (100 < n.toNat →
      exec (.setd n) s = .next { s with history := .report .invalidDuty :: s.history }) ∧
    (n.toNat ≤ 100 →
      exec (.setd n) s = .next
        { s with duty := BitVec.ofNat 7 n.toNat, taint := s.taint || s.gbusy,
                 history := .report .ok :: s.history })

/-- R135 to R139: the five wave-type commands differ only in the code they write. -/
def Obligations.WaveCommandsSelectTheType : Prop :=
  (decode (.cmd 0x53000000) = .ok .wsin ∧ decode (.cmd 0x54000000) = .ok .wtri ∧
    decode (.cmd 0x51000000) = .ok .wsqr ∧ decode (.cmd 0x41000000) = .ok .warb ∧
    decode (.cmd 0x4F000000) = .ok .woff) ∧
  ∀ s : State, s.halt = false → (s.ifFlag && s.ie) = false →
    exec .wsin s = .next
      { s with wtype := 1, taint := s.taint || s.gbusy, history := .report .ok :: s.history } ∧
    exec .wtri s = .next
      { s with wtype := 3, taint := s.taint || s.gbusy, history := .report .ok :: s.history } ∧
    exec .wsqr s = .next
      { s with wtype := 2, taint := s.taint || s.gbusy, history := .report .ok :: s.history } ∧
    exec .warb s = .next
      { s with wtype := 4, taint := s.taint || s.gbusy, history := .report .ok :: s.history } ∧
    exec .woff s = .next
      { s with wtype := 0, taint := s.taint || s.gbusy, history := .report .ok :: s.history }

/-! ## Control and load commands -/

/-- R150: STOP clears RUN and writes nothing else; after it no T.FIRE is enabled, and if IE = 1 no TICK is. -/
def Obligations.StopClearsRunOnly : Prop :=
  decode (.cmd 0x58000000) = .ok .stop ∧
  ∀ s : State, s.halt = false → (s.ifFlag && s.ie) = false →
    ∃ t, exec .stop s = .next t ∧ t = { s with run := false, history := .report .ok :: s.history } ∧
      exec .tFire t = .refused .guardFalse ∧ (s.ie = true → t.ifFlag = false) ∧
      exec .tick t = .refused .guardFalse

/-- R151: REGEN sets PEND and does nothing else. -/
def Obligations.RegenSetsPendOnly : Prop :=
  decode (.cmd 0x47000000) = .ok .regen ∧
  ∀ s : State, s.halt = false → (s.ifFlag && s.ie) = false →
    exec .regen s = .next { s with pend := true, history := .report .ok :: s.history }

/-- R152: LBEG resets the load index; AT keeps its entries. -/
def Obligations.LbegResetsTheLoadIndex : Prop :=
  decode (.cmd 0x4C000000) = .ok .lbeg ∧
  ∀ s : State, s.halt = false → (s.ifFlag && s.ie) = false →
    exec .lbeg s = .next { s with lidx := 0, history := .report .ok :: s.history }

/-- R153: LPUSH writes AT[LIDX], advances LIDX with wrap, and reports LOAD_COMPLETE for entry 399. -/
def Obligations.LpushCommitsOneSample : Prop :=
  (∀ v : Imm16, decode (.cmd (0x57000000#32 ||| v.setWidth 32)) = .ok (.lpush v)) ∧
  ∀ (v : Imm16) (s : State), s.halt = false → (s.ifFlag && s.ie) = false → s.lidx.toNat < 400 →
    ∃ t, exec (.lpush v) s = .next t ∧
      t.atab.get? s.lidx.toNat = some v ∧
      (∀ a, a ≠ s.lidx.toNat → t.atab.get? a = s.atab.get? a) ∧
      (s.lidx.toNat = 399 →
        t = { s with atab := t.atab, taint := s.taint || s.gbusy, lidx := 0,
                     history := .report .loadComplete :: s.history }) ∧
      (s.lidx.toNat < 399 →
        t = { s with atab := t.atab, taint := s.taint || s.gbusy, lidx := BitVec.ofNat 9 (s.lidx.toNat + 1),
                     history := .report .ok :: s.history })

/-! ## The synthesis engine -/

/-- R161. -/
def Obligations.GStartLatchesTheWaveType : Prop :=
  ∀ s : State, s.halt = false → (s.ifFlag && s.ie) = false → s.gbusy = false → s.pend = true →
    exec .gStart s = .next { s with pend := false, gbusy := true, gidx := 0, gtype := s.wtype, taint := false }

/-- R163, and R170's draw in a tainted pass. -/
def Obligations.GOffStoresZero : Prop :=
  ∀ s : State, s.halt = false → (s.ifFlag && s.ie) = false → s.gbusy = true → s.gidx.toNat ≤ 399 → s.gtype = 0 →
    ∃ t, exec .gOff s = .next t ∧
      (s.taint = false → StoredSample s t 0 0) ∧
      (s.taint = true → StoredSample s t (Config.any16 s.draws) 1)

/-- R164 over the reals: an untainted step stores `floor(x + 1/2)` of the exact
`x = (MAXDUTY/2) * sin(2 * pi * (i+1) / 400) + MAXDUTY/2`. -/
def Obligations.GSineStoresTheRoundedRealSine : Prop :=
  ∀ s : State, s.halt = false → (s.ifFlag && s.ie) = false → s.gbusy = true → s.gidx.toNat ≤ 399 → s.gtype = 1 →
    ∃ t, exec .gSine s = .next t ∧
      (s.taint = false → ∃ v : Sample,
        (v.toNat : ℤ) = ⌊(s.maxduty.toNat : ℝ) / 2 * Real.sin (2 * Real.pi * (s.gidx.toNat + 1) / 400)
          + (s.maxduty.toNat : ℝ) / 2 + 1 / 2⌋ ∧ v.toNat ≤ s.maxduty.toNat ∧ StoredSample s t v 0) ∧
      (s.taint = true → StoredSample s t (Config.any16 s.draws) 1)

/-- R165, and R170's draw in a tainted pass. -/
def Obligations.GSqrStoresTheSquare : Prop :=
  ∀ s : State, s.halt = false → (s.ifFlag && s.ie) = false → s.gbusy = true → s.gidx.toNat ≤ 399 → s.gtype = 2 →
    ∃ t, exec .gSqr s = .next t ∧
      (s.taint = false →
        StoredSample s t (if s.gidx.toNat < s.duty.toNat * 400 / 100 then s.maxduty else 0) 0) ∧
      (s.taint = true → StoredSample s t (Config.any16 s.draws) 1)

/-- R166, and R170's draw in a tainted pass: each ramp with its own divisor, which is at least 1 where it is used. -/
def Obligations.GTriStoresTheTriangle : Prop :=
  ∀ s : State, s.halt = false → (s.ifFlag && s.ie) = false → s.gbusy = true → s.gidx.toNat ≤ 399 → s.gtype = 3 →
    ∃ t, exec .gTri s = .next t ∧
      (s.taint = false → ∃ v : Sample, StoredSample s t v 0 ∧
        (s.gidx.toNat < s.duty.toNat * 400 / 100 →
          v.toNat = s.gidx.toNat * s.maxduty.toNat / (s.duty.toNat * 400 / 100)) ∧
        (s.duty.toNat * 400 / 100 ≤ s.gidx.toNat →
          v.toNat + s.maxduty.toNat * (s.gidx.toNat - s.duty.toNat * 400 / 100) / (400 - s.duty.toNat * 400 / 100)
            = s.maxduty.toNat)) ∧
      (s.taint = true → StoredSample s t (Config.any16 s.draws) 1)

/-- R167, R77 and R170: AT's entry rescaled; an entry nothing has written is a draw, and so is a tainted pass's value,
each a draw of its own. -/
def Obligations.GArbRescalesTheLoadedEntry : Prop :=
  ∀ s : State, s.halt = false → (s.ifFlag && s.ie) = false → s.gbusy = true → s.gidx.toNat ≤ 399 → s.gtype = 4 →
    s.ampl.toNat ≤ 33 →
    ∃ t, exec .gArb s = .next t ∧
      (∀ a, s.atab.get? s.gidx.toNat = some a →
        (s.taint = false → ∃ v : Sample, v.toNat = a.toNat * s.ampl.toNat / 33 ∧ StoredSample s t v 0) ∧
        (s.taint = true → StoredSample s t (Config.any16 s.draws) 1)) ∧
      (s.atab.get? s.gidx.toNat = none →
        (s.taint = false → ∃ v : Sample,
          v.toNat = (Config.any16 s.draws).toNat * s.ampl.toNat / 33 ∧ StoredSample s t v 1) ∧
        (s.taint = true → StoredSample s t (Config.any16 (s.draws + 1)) 2))

/-- R168: on a representable frequency G.FIN configures, enables and starts the clock; otherwise it reports
CONFIG_ERROR and leaves SCLK_FREQ, IE and RUN as they were. Either way the pass ends. Which frequencies are
representable is the instance's parameter (R7), of which 0 is never one. -/
def Obligations.GFinConfiguresAndStarts : Prop :=
  Config.sclkRepresentable 0 = false ∧
  ∀ s : State, s.halt = false → (s.ifFlag && s.ie) = false → s.gbusy = true → s.gidx.toNat = 400 →
    ∃ f : BitVec 17,
      (s.freq.toNat ≤ 300 → f.toNat = 400 * s.freq.toNat) ∧
      exec .gFin s = .next
        (if Config.sclkRepresentable (400 * s.freq.toNat) then
          { s with sclkFreq := f, cfgerr := false, ie := true, run := true, gbusy := false }
        else { s with cfgerr := true, gbusy := false, history := .report .configError :: s.history })

/-- R98: with HALT = 0 and no TICK enabled, an engine operation can be a step exactly when its pattern matches EDV. -/
def Obligations.EngineGuardIsItsPattern : Prop :=
  ∀ (i : Instr) (s : State), i.isEngine = true → s.halt = false → (s.ifFlag && s.ie) = false → s.gidx.toNat ≤ 400 →
    ((∃ t, exec i s = .next t) ↔ i.row.matchesCode (.edv s.edv) = true)

/-! ## Streaming -/

/-- R181: T.FIRE sets IF, at any time the clock runs, and only then. -/
def Obligations.TFireSetsThePendingTick : Prop :=
  ∀ s : State, s.halt = false →
    (s.run = true → exec .tFire s = .next { s with ifFlag := true }) ∧
    (s.run = false → exec .tFire s = .refused .guardFalse)

/-- R182: TICK passes WT[SIDX] to the PWM driver, asserts the trigger exactly when SIDX is one of the 21 indices
PHASEIDX, ..., PHASEIDX + 20 (mod 400), advances SIDX modulo 400 and clears IF. The order of the two events in the
history is the rule's; that a trigger write is an event of its own is R174. -/
def Obligations.TickOutputsOneSample : Prop :=
  ∀ s : State, s.halt = false → s.ifFlag = true → s.ie = true → s.sidx.toNat < 400 → s.phaseidx.toNat < 400 →
    ∃ (t : State) (v : Sample) (k : Nat) (b : Bool), exec .tick s = .next t ∧
      (b = true ↔ ∃ o, o ≤ 20 ∧ s.sidx.toNat = (s.phaseidx.toNat + o) % 400) ∧
      (∀ w, s.wtab.get? s.sidx.toNat = some w → v = w ∧ k = 0) ∧
      (s.wtab.get? s.sidx.toNat = none → v = Config.any16 s.draws ∧ k = 1) ∧
      t = { s with
            pwmDuty := v, trig := b, sidx := BitVec.ofNat 9 ((s.sidx.toNat + 1) % 400), ifFlag := false
            draws := s.draws + k, history := .trigger b :: .setDutyCycle v :: s.history }

/-- R182: TICK is not a step unless IF = 1 and IE = 1. -/
def Obligations.TickNeedsAPendingEnabledTick : Prop :=
  ∀ s : State, s.halt = false → (s.ifFlag && s.ie) = false → exec .tick s = .refused .guardFalse

/-! ## Rules of the whole block -/

/-- R130: a host command can be a step exactly when HALT = 0 and no TICK is enabled, whatever the engine is doing; it
emits exactly one report; a rejected one changes no state at all. -/
def Obligations.HostCommandReportsOnce : Prop :=
  ∀ (i : Instr) (s : State), i.isHost = true → s.lidx.toNat < 400 →
    ((∃ t, exec i s = .next t) ↔ s.halt = false ∧ (s.ifFlag && s.ie) = false) ∧
    ∀ t, exec i s = .next t → ∃ c, t.history = .report c :: s.history ∧
      (c ≠ .ok → c ≠ .loadComplete → t = { s with history := t.history })

/-- R170: exactly the accepted commands of its list set TAINT, and only while GBUSY = 1; G.START alone clears it. -/
def Obligations.TaintFollowsItsRule : Prop :=
  ∀ (i : Instr) (s t : State), exec i s = .next t →
    t.taint = (if i = .gStart then false else s.taint || (s.gbusy && i.breaksPass))

/-- R69: WT is written by the engine's generators alone, at GIDX alone, and AT by LPUSH alone, at LIDX alone. -/
def Obligations.TablesHaveOneWriterEach : Prop :=
  ∀ (i : Instr) (s t : State), exec i s = .next t →
    (∀ a, i.isGenerator = false ∨ a ≠ s.gidx.toNat → t.wtab.get? a = s.wtab.get? a) ∧
    (∀ a, (∀ v, i ≠ .lpush v) ∨ a ≠ s.lidx.toNat → t.atab.get? a = s.atab.get? a)

/-- The write half of R29, and the writers R30 to R43 and R45 name: every register of R20 keeps its value under an
operation that does not write it. -/
def Obligations.EveryRegisterHasItsWriters : Prop :=
  ∀ (i : Instr) (s t : State), exec i s = .next t →
    ((∀ n, i = .setf n ∨ i = .setv n → n ≠ 0) → i ∉ [.wsin, .wtri, .wsqr, .warb, .woff] → t.wtype = s.wtype) ∧
    ((∀ n, i ≠ .setf n) → t.freq = s.freq) ∧
    ((∀ n, i ≠ .setv n) → t.ampl = s.ampl ∧ t.maxduty = s.maxduty) ∧
    ((∀ n, i ≠ .setp n) → t.phase = s.phase ∧ t.phaseidx = s.phaseidx) ∧
    ((∀ n, i ≠ .setd n) → t.duty = s.duty) ∧
    (i ≠ .tick → t.sidx = s.sidx ∧ t.pwmDuty = s.pwmDuty ∧ t.trig = s.trig) ∧
    (i ≠ .lbeg → (∀ v, i ≠ .lpush v) → t.lidx = s.lidx) ∧
    (i ≠ .gStart → t.gtype = s.gtype) ∧
    (i ≠ .gStart → i.isGenerator = false → t.gidx = s.gidx) ∧
    (i ≠ .gStart → i ≠ .gFin → t.gbusy = s.gbusy) ∧
    (i ≠ .gStart → i ≠ .regen → t.pend = s.pend) ∧
    (i ≠ .gStart → i.breaksPass = false → t.taint = s.taint) ∧
    (i ≠ .gFin → t.sclkFreq = s.sclkFreq ∧ t.ie = s.ie ∧ t.cfgerr = s.cfgerr) ∧
    (i ≠ .gFin → i ≠ .stop → t.run = s.run) ∧
    (i ≠ .tFire → i ≠ .tick → t.ifFlag = s.ifFlag) ∧
    t.halt = s.halt

/-- R73 and R150: once the clock is stopped with no tick pending, nothing but G.FIN starts it, and no tick becomes
pending before that. -/
def Obligations.StoppedClockStaysQuiet : Prop :=
  ∀ (i : Instr) (s t : State), s.run = false → s.ifFlag = false → i ≠ .gFin → exec i s = .next t →
    t.run = false ∧ t.ifFlag = false

/-- R199: when STOP runs with IE = 1, no tick is pending. -/
def Obligations.StopFindsNoPendingTick : Prop :=
  ∀ s t : State, exec .stop s = .next t → s.ie = true → s.ifFlag = false ∧ t.ifFlag = false

/-- R200: with T.FIRE and TICK enabled together, T.FIRE first is absorbed (nothing is pending after the TICK), and after
TICK first a T.FIRE makes a tick pending again. -/
def Obligations.TFireAndTickInEitherOrder : Prop :=
  ∀ s : State, s.halt = false → s.run = true → s.ifFlag = true → s.ie = true → s.sidx.toNat < 400 →
    exec .tFire s = .next s ∧
    ∃ t, exec .tick s = .next t ∧ t.ifFlag = false ∧ exec .tFire t = .next { t with ifFlag := true }

/-- R235: in a quiescent block the engine has no step, and with RUN = 0 and nothing pending only host commands do. -/
def Obligations.QuiescentBlockOnlyTicks : Prop :=
  ∀ (i : Instr) (s t : State), s.gbusy = false → s.pend = false → i.isHost = false → exec i s = .next t →
    (i = .tFire ∧ s.run = true) ∨ (i = .tick ∧ s.ifFlag = true ∧ s.ie = true)

/-- R45: STATUS's bits. -/
def Obligations.StatusShowsTheFlags : Prop :=
  ∀ s : State,
    s.status.getLsbD 0 = s.run ∧ s.status.getLsbD 1 = s.ie ∧ s.status.getLsbD 2 = s.ifFlag ∧
    s.status.getLsbD 3 = s.trig ∧ s.status.getLsbD 4 = s.cfgerr ∧ s.status.getLsbD 5 = s.gbusy ∧
    s.status.getLsbD 6 = s.pend ∧ s.status.getLsbD 7 = s.taint ∧ s.status.getLsbD 8 = s.halt

/-- R98 and R100: the bits of EDV and SDV. -/
def Obligations.DispatchVectorsShowTheState : Prop :=
  ∀ s : State,
    s.edv.getLsbD 5 = s.gbusy ∧ (s.edv.getLsbD 4 = true ↔ s.gidx.toNat = 400) ∧ s.edv.getLsbD 3 = s.pend ∧
    s.edv.extractLsb' 0 3 = s.gtype ∧
    s.sdv.getLsbD 2 = s.run ∧ s.sdv.getLsbD 1 = s.ifFlag ∧ s.sdv.getLsbD 0 = s.ie

/-- R190: the report codes' numbers; no two names share one. -/
def Obligations.ReportCodesAreNumbered : Prop :=
  reportNumber .ok = 0 ∧ reportNumber .invalidCommand = 1 ∧ reportNumber .invalidFrequency = 2 ∧
  reportNumber .invalidAmplitude = 3 ∧ reportNumber .invalidPhase = 4 ∧ reportNumber .invalidDuty = 5 ∧
  reportNumber .configError = 6 ∧ reportNumber .loadComplete = 7 ∧ reportNumber .hardwareFault = 8 ∧
  ∀ c d, reportNumber c = reportNumber d → c = d

/-! ## Reset and invariants -/

/-- R49, R221 and R222: every register's reset value, the tables without one, and HARDWARE_FAULT when initOk is false.
R49 gives PWM_DUTY no value; the model shows a free one (log entry 3), of which nothing is said here. -/
def Obligations.ResetState : Prop :=
  let s := State.reset
  s.wtype = 0 ∧ s.freq = 0 ∧ s.ampl = 0 ∧ s.phase = 0 ∧ s.duty = 0 ∧ s.maxduty = 0 ∧ s.phaseidx = 0 ∧
  s.sidx = 0 ∧ s.lidx = 0 ∧ s.gbusy = false ∧ s.gidx = 0 ∧ s.gtype = 0 ∧ s.pend = false ∧ s.taint = false ∧
  s.sclkFreq = 0 ∧ s.run = false ∧ s.ie = false ∧ s.ifFlag = false ∧ s.cfgerr = false ∧ s.trig = false ∧
  s.halt = (!Config.initOk) ∧ (∀ i, s.wtab.get? i = none ∧ s.atab.get? i = none) ∧
  s.history = (if Config.initOk then [] else [.report .hardwareFault])

/-- R221: after reset, if HALT = 0, the enabled operations are exactly the host commands. -/
def Obligations.ResetEnablesTheHostAlone : Prop :=
  ∀ i : Instr, (∃ t, exec i { State.reset with halt := false } = .next t) ↔ i.isHost = true

/-- The invariant holds at reset (R28). -/
def Obligations.ResetMeetsTheInvariant : Prop := State.reset.Inv

/-- Every step of every agent keeps the invariant: the parameter ranges and MAXDUTY's and PHASEIDX's laws (R28), the
counters on their tables (R30, R32, R33), the clock's range and RUN, IF implying IE (R36, R181), the tables' form, and
WT whole once a tick can be enabled (R46). -/
def Obligations.EveryStepKeepsTheInvariant : Prop :=
  ∀ s t : State, s.Inv → step s = .next t → t.Inv

/-- In an unhalted good state a step is never a fault or a refusal, whoever's turn it is and whatever word is on the
port: no access is out of range (R65) and no reserved type is met (R99). That a turn with nothing to do is a step is the
model's choice (log entry 4): with the engine quiescent and RUN = 0 the block itself has no step until the host issues a
command (R235), and the model's step there only passes the turn. -/
def Obligations.LiveBlockAlwaysSteps : Prop :=
  ∀ s : State, s.Inv → s.halt = false → ∃ t, step s = .next t

/-- R46: no TICK reads an entry nothing has written: in a good state it outputs the entry's own value and draws
nothing. -/
def Obligations.TickNeverReadsADraw : Prop :=
  ∀ s t : State, s.Inv → exec .tick s = .next t →
    s.wtab.get? s.sidx.toNat = some t.pwmDuty ∧ t.draws = s.draws

/-- Every step of every agent keeps the clean prefix: in a pass that no command has tainted, each entry already
rewritten holds what its rule gives for the registers as they stand (R71, R171). -/
def Obligations.EveryStepKeepsTheCleanPrefix : Prop :=
  ∀ s t : State, s.CleanPrefix → step s = .next t → t.CleanPrefix

/-- R160: with the engine alone moving, a pass is G.START, 400 generator steps and G.FIN, and leaves every entry at its
rule's value for the latched type. That the engine alone moves is said by the schedule, and the clause on what is left of
it (`t.turns = rest`) is the model's own (log entry 4). -/
def Obligations.PassTakes402EngineSteps : Prop :=
  ∀ (s : State) (rest : List Agent),
    s.halt = false → s.gbusy = false → s.pend = true → s.run = false → s.ifFlag = false →
    s.wtype.toNat ≤ 4 → (s.wtype = 4 → ∀ i, i < 400 → (s.atab.get? i).isSome = true) →
    s.turns = List.replicate 402 .engine ++ rest →
    ∃ t : State, Host.Core.run core 402 s = .next t ∧
      t.gbusy = false ∧ t.pend = false ∧ t.taint = false ∧ t.gidx.toNat = 400 ∧ t.gtype = s.wtype ∧ t.turns = rest ∧
      t.wtype = s.wtype ∧ t.maxduty = s.maxduty ∧ t.duty = s.duty ∧ t.ampl = s.ampl ∧ t.atab = s.atab ∧
      t.sidx = s.sidx ∧ t.draws = s.draws ∧
      ∀ i, i < 400 → ∃ v, t.entryLaw i = some v ∧ t.wtab.get? i = some (BitVec.ofNat 16 v)

/-- R171: the table a clean pass leaves depends on the latched type, MAXDUTY, DUTY, AMPL and AT alone, whatever steps
of the host, the timer and the streaming unit came between the engine's. Each of the two runs starts in any state with
the clean prefix (every state outside a pass has it, and no step loses it) and takes any number of steps of any agents to
t; the next step, which ends the pass, leads to u, with TAINT = 0. In what state the block is otherwise, and what the
schedule and the port hold (the model's own, log entries 4, 5), is left open. -/
def Obligations.TableDependsOnItsInputsAlone : Prop :=
  ∀ (s t u s' t' u' : State) (n n' : Nat),
    s.CleanPrefix → Host.Core.run core n s = .next t → t.gbusy = true → step t = .next u → u.gbusy = false →
    u.taint = false →
    s'.CleanPrefix → Host.Core.run core n' s' = .next t' → t'.gbusy = true → step t' = .next u' → u'.gbusy = false →
    u'.taint = false →
    u.gtype.toNat ≤ 4 → (u.gtype = 4 → ∀ i, i < 400 → (u.atab.get? i).isSome = true) →
    u'.gtype = u.gtype → u'.maxduty = u.maxduty → u'.duty = u.duty → u'.ampl = u.ampl → u'.atab = u.atab →
    ∀ i, i < 400 → ∃ v, u.wtab.get? i = some v ∧ u'.wtab.get? i = some v

/-- R183: when no tick is lost, k pairs T.FIRE, TICK output WT[s0], WT[s0 + 1], ... in index order modulo 400 and leave
SIDX at s0 + k modulo 400. The schedule, and what is left of it (`t.turns = rest`), is the model's own (log entry 4), and
so is the history list (log entry 6). -/
def Obligations.TickPairsWalkTheTable : Prop :=
  ∀ (s : State) (k : Nat) (rest : List Agent) (w : Nat → Sample),
    s.halt = false → s.run = true → s.ie = true → s.ifFlag = false → s.sidx.toNat < 400 →
    (∀ i, i < 400 → s.wtab.get? i = some (w i)) →
    s.turns = (List.replicate k [Agent.timer, Agent.streaming]).flatten ++ rest →
    ∃ t : State, Host.Core.run core (2 * k) s = .next t ∧
      t.sidx.toNat = (s.sidx.toNat + k) % 400 ∧ t.wtab = s.wtab ∧ t.ifFlag = false ∧ t.turns = rest ∧
      t.history = ((List.range k).reverse.flatMap fun j =>
        [.trigger (decide (((s.sidx.toNat + j) % 400 + 400 - s.phaseidx.toNat) % 400 ≤ 20)),
         .setDutyCycle (w ((s.sidx.toNat + j) % 400))]) ++ s.history

/-- R153: from LIDX = 0, 400 LPUSH words with the host alone moving write AT[0..399] in order, leave LIDX = 0 and
report LOAD_COMPLETE once, last. The port and the schedule are the model's own (log entries 4, 5). -/
def Obligations.LoadFillsTheArbitraryTable : Prop :=
  ∀ (s : State) (f : Nat → Imm16) (rest : List CmdWord) (q : List Agent),
    s.halt = false → (s.ifFlag && s.ie) = false → s.lidx = 0 →
    s.port = (List.range 400).map (fun i => 0x57000000#32 ||| (f i).setWidth 32) ++ rest →
    s.turns = List.replicate 400 .host ++ q →
    ∃ t : State, Host.Core.run core 400 s = .next t ∧
      (∀ i, i < 400 → t.atab.get? i = some (f i)) ∧ t.lidx = 0 ∧ t.port = rest ∧ t.turns = q ∧ t.wtab = s.wtab ∧
      t.history = .report .loadComplete :: (List.replicate 399 (.report .ok) ++ s.history)

/-! ## The table laws -/

/-- R165: the square table has exactly dutyIndex entries at MAXDUTY and the rest at 0. -/
def Obligations.SquareHasDutyIndexHighEntries : Prop :=
  ∀ m duty : Nat, 0 < m → duty ≤ 100 →
    ((List.range 400).filter fun i => sampleSquare m duty i == m).length = duty * 400 / 100 ∧
    ((List.range 400).filter fun i => sampleSquare m duty i == 0).length = 400 - duty * 400 / 100

/-- R166: the triangle rises on [0, di), falls on [di, 400), starts at 0 when di >= 1, is MAXDUTY at di when di <= 399,
and never exceeds MAXDUTY. -/
def Obligations.TriangleRisesThenFalls : Prop :=
  ∀ m duty : Nat, duty ≤ 100 →
    (∀ i j, i ≤ j → j < duty * 400 / 100 → sampleTriangle m duty i ≤ sampleTriangle m duty j) ∧
    (∀ i j, duty * 400 / 100 ≤ i → i ≤ j → j < 400 → sampleTriangle m duty j ≤ sampleTriangle m duty i) ∧
    (1 ≤ duty * 400 / 100 → sampleTriangle m duty 0 = 0) ∧
    (duty * 400 / 100 ≤ 399 → sampleTriangle m duty (duty * 400 / 100) = m) ∧
    (∀ i, i < 400 → sampleTriangle m duty i ≤ m)

/-- R61: an untainted entry of the four computed types lies in 0..DUTY_MAX. -/
def Obligations.ComputedSamplesStayInTheDutyDomain : Prop :=
  ∀ (i : Instr) (s t : State), i ∈ [.gOff, .gSine, .gSqr, .gTri] → s.Inv → s.taint = false → exec i s = .next t →
    ∃ v : Sample, t.wtab.get? s.gidx.toNat = some v ∧ v.toNat ≤ Config.dutyMax

/-- R183: the trigger window holds exactly 21 of the 400 indices, wherever it starts. -/
def Obligations.TriggerWindowHas21Indices : Prop :=
  ∀ p : Nat, p < 400 → ((List.range 400).filter fun i => inWindow i p).length = 21
end

