-- ==== Sys2Proof/Laws/Decode.lean ====
section
/-! SUPPORT. The command word's fields: what encoding writes there, and that a row's mask and match say the same as the
letter, RSV and IMM16 that R102 tests. -/

namespace Sys2Proof

theorem getLsbD_cmdWord (b : CmdWord) (n : Imm16) (i : Nat) :
    (cmdWord b n).getLsbD i = (b.getLsbD i || n.getLsbD i) := by
  simp only [cmdWord, BitVec.getLsbD_or, BitVec.getLsbD_setWidth]
  by_cases h : i < 32
  · simp [h]
  · simp [h, BitVec.getLsbD_of_ge n i (by omega)]

theorem letterOf_cmdWord (b : CmdWord) (n : Imm16) : letterOf (cmdWord b n) = letterOf b := by
  unfold letterOf; congr 1; ext i hi
  simp [getLsbD_cmdWord, BitVec.getLsbD_of_ge n (24 + i) (by omega)]

theorem rsvOf_cmdWord (b : CmdWord) (n : Imm16) : rsvOf (cmdWord b n) = rsvOf b := by
  unfold rsvOf; ext i hi
  simp [getLsbD_cmdWord]

theorem immOf_cmdWord (b : CmdWord) (n : Imm16) : immOf (cmdWord b n) = immOf b ||| n := by
  unfold immOf; ext i hi
  simp [getLsbD_cmdWord, BitVec.getLsbD_eq_getElem hi]

theorem immOf_eq_setWidth (w : CmdWord) : immOf w = w.setWidth 16 := by
  unfold immOf; ext i hi; simp [BitVec.getElem_setWidth]

theorem getLsbD_letterOf (w : CmdWord) (i : Nat) :
    (letterOf w).getLsbD i = (decide (i < 8) && w.getLsbD (24 + i) && (0xDF#8).getLsbD i) := by
  simp [letterOf, BitVec.getLsbD_extractLsb']

theorem getLsbD_rsvOf (w : CmdWord) (i : Nat) : (rsvOf w).getLsbD i = (decide (i < 8) && w.getLsbD (16 + i)) := by
  simp [rsvOf, BitVec.getLsbD_extractLsb']

theorem getLsbD_immOf (w : CmdWord) (i : Nat) : (immOf w).getLsbD i = (decide (i < 16) && w.getLsbD i) := by
  simp [immOf, BitVec.getLsbD_extractLsb']

/-- Two words agree under 0xDFFF0000 exactly when their letters and RSV fields agree (R92). -/
theorem and_operandMask_eq_iff (w b : CmdWord) :
    w &&& 0xDFFF0000 = b &&& 0xDFFF0000 ↔ letterOf w = letterOf b ∧ rsvOf w = rsvOf b := by
  constructor
  · intro h
    have hb := fun j => congrArg (fun x : CmdWord => x.getLsbD j) h
    simp only [BitVec.getLsbD_and] at hb
    constructor <;> apply BitVec.eq_of_getLsbD_eq <;> intro i hi
    · have := hb (24 + i)
      simp only [getLsbD_letterOf]
      interval_cases i <;> simp_all
    · have := hb (16 + i)
      simp only [getLsbD_rsvOf]
      interval_cases i <;> simp_all
  · rintro ⟨h1, h2⟩
    have hl := fun j => congrArg (fun x : BitVec 8 => x.getLsbD j) h1
    have hr := fun j => congrArg (fun x : BitVec 8 => x.getLsbD j) h2
    simp only [getLsbD_letterOf, getLsbD_rsvOf] at hl hr
    apply BitVec.eq_of_getLsbD_eq; intro i hi
    simp only [BitVec.getLsbD_and]
    rcases Nat.lt_or_ge i 16 with h | h
    · interval_cases i <;> simp
    · rcases Nat.lt_or_ge i 24 with h' | h'
      · have := hr (i - 16)
        rw [show 16 + (i - 16) = i by omega] at this
        interval_cases i <;> simp_all
      · have := hl (i - 24)
        rw [show 24 + (i - 24) = i by omega] at this
        interval_cases i <;> simp_all

/-- The same for 0xDFFFFFFF, with the IMM16 fields (R92, R95). -/
theorem and_plainMask_eq_iff (w b : CmdWord) :
    w &&& 0xDFFFFFFF = b &&& 0xDFFFFFFF ↔ letterOf w = letterOf b ∧ rsvOf w = rsvOf b ∧ immOf w = immOf b := by
  rw [← and_assoc, ← and_operandMask_eq_iff]
  constructor
  · intro h
    have hb := fun j => congrArg (fun x : CmdWord => x.getLsbD j) h
    simp only [BitVec.getLsbD_and] at hb
    constructor
    · apply BitVec.eq_of_getLsbD_eq; intro i hi
      have := hb i
      simp only [BitVec.getLsbD_and]
      rcases Nat.lt_or_ge i 16 with h | h
      · interval_cases i <;> simp
      · interval_cases i <;> simp_all
    · apply BitVec.eq_of_getLsbD_eq; intro i hi
      have := hb i
      simp only [getLsbD_immOf]
      interval_cases i <;> simp_all
  · rintro ⟨h1, h2⟩
    have hm := fun j => congrArg (fun x : CmdWord => x.getLsbD j) h1
    have hi' := fun j => congrArg (fun x : BitVec 16 => x.getLsbD j) h2
    simp only [BitVec.getLsbD_and, getLsbD_immOf] at hm hi'
    apply BitVec.eq_of_getLsbD_eq; intro i hi
    simp only [BitVec.getLsbD_and]
    rcases Nat.lt_or_ge i 16 with h | h
    · have := hi' i; interval_cases i <;> simp_all
    · have := hm i; interval_cases i <;> simp_all

end Sys2Proof
end

