-- ==== Sys2Proof/Laws/Memory.lean ====
section
/-! SUPPORT. The tables: read after write, every other entry left alone, and the canonical form kept (R62, R63). -/

namespace Sys2Proof.Machine

@[simp] theorem Memory.get?_nil (i : Nat) : Memory.get? [] i = none := rfl

/-- A read after a write to the same entry gives the value written. -/
@[simp] theorem Memory.get?_set_same (m : Memory) (i : Nat) (v : Sample) : (m.set i v).get? i = some v := by
  induction m with
  | nil => simp [Memory.set, Memory.get?]
  | cons e rest ih =>
    obtain ⟨j, w⟩ := e
    unfold Memory.set
    split
    · simp [Memory.get?]
    · split
      · simp [Memory.get?]
      · next h => simp [Memory.get?, h, ih]

/-- A write leaves every other entry alone. -/
theorem Memory.get?_set_other (m : Memory) {i a : Nat} (v : Sample) (h : a ≠ i) :
    (m.set i v).get? a = m.get? a := by
  induction m with
  | nil => simp [Memory.set, Memory.get?, h]
  | cons e rest ih =>
    obtain ⟨j, w⟩ := e
    unfold Memory.set
    split
    · simp [Memory.get?, h]
    · split
      · next hj => subst hj; simp [Memory.get?, h]
      · simp [Memory.get?, ih]

/-- Every read after a write, in one rule. -/
theorem Memory.get?_set (m : Memory) (i a : Nat) (v : Sample) :
    (m.set i v).get? a = if a = i then some v else m.get? a := by
  split
  · next h => rw [h, Memory.get?_set_same]
  · next h => exact m.get?_set_other v h

theorem Memory.risesFrom_set (m : Memory) {lo i : Nat} (v : Sample) (hm : m.risesFrom lo = true) (hlo : lo ≤ i)
    (hi : i < N) : (m.set i v).risesFrom lo = true := by
  induction m generalizing lo with
  | nil => simp [Memory.set, Memory.risesFrom, hlo, hi]
  | cons e rest ih =>
    obtain ⟨j, w⟩ := e
    simp only [Memory.risesFrom, Bool.and_eq_true, decide_eq_true_eq] at hm
    obtain ⟨⟨hj, hjN⟩, hr⟩ := hm
    unfold Memory.set
    split
    · next h => simp only [Memory.risesFrom, Bool.and_eq_true, decide_eq_true_eq]; exact ⟨⟨hlo, hi⟩, ⟨h, hjN⟩, hr⟩
    · split
      · next h => subst h; simp only [Memory.risesFrom, Bool.and_eq_true, decide_eq_true_eq]; exact ⟨⟨hlo, hi⟩, hr⟩
      · next h1 h2 =>
        simp only [Memory.risesFrom, Bool.and_eq_true, decide_eq_true_eq]
        exact ⟨⟨hj, hjN⟩, ih hr (by omega)⟩

/-- A write to an entry that exists keeps the canonical form. -/
theorem Memory.set_wf (m : Memory) {i : Nat} (v : Sample) (hm : m.wf = true) (hi : i < N) : (m.set i v).wf = true :=
  m.risesFrom_set v hm (Nat.zero_le i) hi

/-- Reset's tables, with nothing listed, are in canonical form. -/
@[simp] theorem Memory.wf_nil : Memory.wf [] = true := rfl

/-- In canonical form only entries that exist are listed. -/
theorem Memory.lt_of_get?_isSome {m : Memory} {lo i : Nat} (hm : m.risesFrom lo = true)
    (h : (m.get? i).isSome = true) : i < N := by
  induction m generalizing lo with
  | nil => simp at h
  | cons e rest ih =>
    obtain ⟨j, w⟩ := e
    simp only [Memory.risesFrom, Bool.and_eq_true, decide_eq_true_eq] at hm
    unfold Memory.get? at h
    split at h
    · next hij => rw [hij]; exact hm.1.2
    · exact ih hm.2 h

/-- An index below the first listed one holds nothing. -/
theorem Memory.get?_of_lt {m : Memory} {lo i : Nat} (hm : m.risesFrom lo = true) (h : i < lo) : m.get? i = none := by
  induction m generalizing lo with
  | nil => rfl
  | cons e rest ih =>
    obtain ⟨j, w⟩ := e
    simp only [Memory.risesFrom, Bool.and_eq_true, decide_eq_true_eq] at hm
    obtain ⟨⟨hj, -⟩, hr⟩ := hm
    simp only [Memory.get?, if_neg (show i ≠ j by omega)]
    exact ih hr (by omega)

theorem Memory.ext_risesFrom {m m' : Memory} {lo : Nat} (hm : m.risesFrom lo = true) (hm' : m'.risesFrom lo = true)
    (h : ∀ i, m.get? i = m'.get? i) : m = m' := by
  induction m generalizing m' lo with
  | nil =>
    cases m' with
    | nil => rfl
    | cons e rest => have := h e.1; simp [Memory.get?] at this
  | cons e rest ih =>
    obtain ⟨j, w⟩ := e
    cases m' with
    | nil => have := h j; simp [Memory.get?] at this
    | cons e' rest' =>
      obtain ⟨k, w'⟩ := e'
      simp only [Memory.risesFrom, Bool.and_eq_true, decide_eq_true_eq] at hm hm'
      have hjk : j = k := by
        rcases Nat.lt_trichotomy j k with hlt | heq | hgt
        · have := h j
          simp only [Memory.get?, if_pos, if_neg (show j ≠ k by omega), Memory.get?_of_lt hm'.2 (show j < k + 1 by omega)]
            at this
          simp at this
        · exact heq
        · have := h k
          simp only [Memory.get?, if_pos, if_neg (show k ≠ j by omega), Memory.get?_of_lt hm.2 (show k < j + 1 by omega)]
            at this
          simp at this
      subst hjk
      have hw : w = w' := by simpa [Memory.get?] using h j
      subst hw
      congr 1
      refine ih hm.2 hm'.2 fun i => ?_
      by_cases hi : i = j
      · subst hi; rw [Memory.get?_of_lt hm.2 (Nat.lt_succ_self i), Memory.get?_of_lt hm'.2 (Nat.lt_succ_self i)]
      · simpa [Memory.get?, hi] using h i

/-- In canonical form, tables that read alike at every entry are the same data. -/
theorem Memory.ext_wf {m m' : Memory} (hm : m.wf = true) (hm' : m'.wf = true) (h : ∀ i, m.get? i = m'.get? i) :
    m = m' := Memory.ext_risesFrom hm hm' h

end Sys2Proof.Machine
end

