-- ==== Sys2Proof/Laws/State.lean ====
section
/-! SUPPORT. For each named update of State, one lemma per field: what the field holds after it. -/

namespace Sys2Proof.Machine

variable (s : State)

/-! ### draw -/

@[simp] theorem State.draw_wtype : (s.draw).2.wtype = s.wtype := rfl
@[simp] theorem State.draw_freq : (s.draw).2.freq = s.freq := rfl
@[simp] theorem State.draw_ampl : (s.draw).2.ampl = s.ampl := rfl
@[simp] theorem State.draw_phase : (s.draw).2.phase = s.phase := rfl
@[simp] theorem State.draw_duty : (s.draw).2.duty = s.duty := rfl
@[simp] theorem State.draw_maxduty : (s.draw).2.maxduty = s.maxduty := rfl
@[simp] theorem State.draw_phaseidx : (s.draw).2.phaseidx = s.phaseidx := rfl
@[simp] theorem State.draw_sidx : (s.draw).2.sidx = s.sidx := rfl
@[simp] theorem State.draw_lidx : (s.draw).2.lidx = s.lidx := rfl
@[simp] theorem State.draw_gbusy : (s.draw).2.gbusy = s.gbusy := rfl
@[simp] theorem State.draw_gidx : (s.draw).2.gidx = s.gidx := rfl
@[simp] theorem State.draw_gtype : (s.draw).2.gtype = s.gtype := rfl
@[simp] theorem State.draw_pend : (s.draw).2.pend = s.pend := rfl
@[simp] theorem State.draw_taint : (s.draw).2.taint = s.taint := rfl
@[simp] theorem State.draw_sclkFreq : (s.draw).2.sclkFreq = s.sclkFreq := rfl
@[simp] theorem State.draw_run : (s.draw).2.run = s.run := rfl
@[simp] theorem State.draw_ie : (s.draw).2.ie = s.ie := rfl
@[simp] theorem State.draw_ifFlag : (s.draw).2.ifFlag = s.ifFlag := rfl
@[simp] theorem State.draw_cfgerr : (s.draw).2.cfgerr = s.cfgerr := rfl
@[simp] theorem State.draw_pwmDuty : (s.draw).2.pwmDuty = s.pwmDuty := rfl
@[simp] theorem State.draw_trig : (s.draw).2.trig = s.trig := rfl
@[simp] theorem State.draw_halt : (s.draw).2.halt = s.halt := rfl
@[simp] theorem State.draw_wtab : (s.draw).2.wtab = s.wtab := rfl
@[simp] theorem State.draw_atab : (s.draw).2.atab = s.atab := rfl
@[simp] theorem State.draw_port : (s.draw).2.port = s.port := rfl
@[simp] theorem State.draw_turns : (s.draw).2.turns = s.turns := rfl
@[simp] theorem State.draw_draws : (s.draw).2.draws = s.draws + 1 := rfl
@[simp] theorem State.draw_history : (s.draw).2.history = s.history := rfl

/-! ### emit -/

@[simp] theorem State.emit_wtype (e : Event) : (s.emit e).wtype = s.wtype := rfl
@[simp] theorem State.emit_freq (e : Event) : (s.emit e).freq = s.freq := rfl
@[simp] theorem State.emit_ampl (e : Event) : (s.emit e).ampl = s.ampl := rfl
@[simp] theorem State.emit_phase (e : Event) : (s.emit e).phase = s.phase := rfl
@[simp] theorem State.emit_duty (e : Event) : (s.emit e).duty = s.duty := rfl
@[simp] theorem State.emit_maxduty (e : Event) : (s.emit e).maxduty = s.maxduty := rfl
@[simp] theorem State.emit_phaseidx (e : Event) : (s.emit e).phaseidx = s.phaseidx := rfl
@[simp] theorem State.emit_sidx (e : Event) : (s.emit e).sidx = s.sidx := rfl
@[simp] theorem State.emit_lidx (e : Event) : (s.emit e).lidx = s.lidx := rfl
@[simp] theorem State.emit_gbusy (e : Event) : (s.emit e).gbusy = s.gbusy := rfl
@[simp] theorem State.emit_gidx (e : Event) : (s.emit e).gidx = s.gidx := rfl
@[simp] theorem State.emit_gtype (e : Event) : (s.emit e).gtype = s.gtype := rfl
@[simp] theorem State.emit_pend (e : Event) : (s.emit e).pend = s.pend := rfl
@[simp] theorem State.emit_taint (e : Event) : (s.emit e).taint = s.taint := rfl
@[simp] theorem State.emit_sclkFreq (e : Event) : (s.emit e).sclkFreq = s.sclkFreq := rfl
@[simp] theorem State.emit_run (e : Event) : (s.emit e).run = s.run := rfl
@[simp] theorem State.emit_ie (e : Event) : (s.emit e).ie = s.ie := rfl
@[simp] theorem State.emit_ifFlag (e : Event) : (s.emit e).ifFlag = s.ifFlag := rfl
@[simp] theorem State.emit_cfgerr (e : Event) : (s.emit e).cfgerr = s.cfgerr := rfl
@[simp] theorem State.emit_pwmDuty (e : Event) : (s.emit e).pwmDuty = s.pwmDuty := rfl
@[simp] theorem State.emit_trig (e : Event) : (s.emit e).trig = s.trig := rfl
@[simp] theorem State.emit_halt (e : Event) : (s.emit e).halt = s.halt := rfl
@[simp] theorem State.emit_wtab (e : Event) : (s.emit e).wtab = s.wtab := rfl
@[simp] theorem State.emit_atab (e : Event) : (s.emit e).atab = s.atab := rfl
@[simp] theorem State.emit_port (e : Event) : (s.emit e).port = s.port := rfl
@[simp] theorem State.emit_turns (e : Event) : (s.emit e).turns = s.turns := rfl
@[simp] theorem State.emit_draws (e : Event) : (s.emit e).draws = s.draws := rfl
@[simp] theorem State.emit_history (e : Event) : (s.emit e).history = e :: s.history := rfl

/-! ### report -/

@[simp] theorem State.report_wtype (c : ReportCode) : (s.report c).wtype = s.wtype := rfl
@[simp] theorem State.report_freq (c : ReportCode) : (s.report c).freq = s.freq := rfl
@[simp] theorem State.report_ampl (c : ReportCode) : (s.report c).ampl = s.ampl := rfl
@[simp] theorem State.report_phase (c : ReportCode) : (s.report c).phase = s.phase := rfl
@[simp] theorem State.report_duty (c : ReportCode) : (s.report c).duty = s.duty := rfl
@[simp] theorem State.report_maxduty (c : ReportCode) : (s.report c).maxduty = s.maxduty := rfl
@[simp] theorem State.report_phaseidx (c : ReportCode) : (s.report c).phaseidx = s.phaseidx := rfl
@[simp] theorem State.report_sidx (c : ReportCode) : (s.report c).sidx = s.sidx := rfl
@[simp] theorem State.report_lidx (c : ReportCode) : (s.report c).lidx = s.lidx := rfl
@[simp] theorem State.report_gbusy (c : ReportCode) : (s.report c).gbusy = s.gbusy := rfl
@[simp] theorem State.report_gidx (c : ReportCode) : (s.report c).gidx = s.gidx := rfl
@[simp] theorem State.report_gtype (c : ReportCode) : (s.report c).gtype = s.gtype := rfl
@[simp] theorem State.report_pend (c : ReportCode) : (s.report c).pend = s.pend := rfl
@[simp] theorem State.report_taint (c : ReportCode) : (s.report c).taint = s.taint := rfl
@[simp] theorem State.report_sclkFreq (c : ReportCode) : (s.report c).sclkFreq = s.sclkFreq := rfl
@[simp] theorem State.report_run (c : ReportCode) : (s.report c).run = s.run := rfl
@[simp] theorem State.report_ie (c : ReportCode) : (s.report c).ie = s.ie := rfl
@[simp] theorem State.report_ifFlag (c : ReportCode) : (s.report c).ifFlag = s.ifFlag := rfl
@[simp] theorem State.report_cfgerr (c : ReportCode) : (s.report c).cfgerr = s.cfgerr := rfl
@[simp] theorem State.report_pwmDuty (c : ReportCode) : (s.report c).pwmDuty = s.pwmDuty := rfl
@[simp] theorem State.report_trig (c : ReportCode) : (s.report c).trig = s.trig := rfl
@[simp] theorem State.report_halt (c : ReportCode) : (s.report c).halt = s.halt := rfl
@[simp] theorem State.report_wtab (c : ReportCode) : (s.report c).wtab = s.wtab := rfl
@[simp] theorem State.report_atab (c : ReportCode) : (s.report c).atab = s.atab := rfl
@[simp] theorem State.report_port (c : ReportCode) : (s.report c).port = s.port := rfl
@[simp] theorem State.report_turns (c : ReportCode) : (s.report c).turns = s.turns := rfl
@[simp] theorem State.report_draws (c : ReportCode) : (s.report c).draws = s.draws := rfl
@[simp] theorem State.report_history (c : ReportCode) : (s.report c).history = .report c :: s.history := rfl

/-! ### taintIfBusy -/

@[simp] theorem State.taintIfBusy_wtype : s.taintIfBusy.wtype = s.wtype := rfl
@[simp] theorem State.taintIfBusy_freq : s.taintIfBusy.freq = s.freq := rfl
@[simp] theorem State.taintIfBusy_ampl : s.taintIfBusy.ampl = s.ampl := rfl
@[simp] theorem State.taintIfBusy_phase : s.taintIfBusy.phase = s.phase := rfl
@[simp] theorem State.taintIfBusy_duty : s.taintIfBusy.duty = s.duty := rfl
@[simp] theorem State.taintIfBusy_maxduty : s.taintIfBusy.maxduty = s.maxduty := rfl
@[simp] theorem State.taintIfBusy_phaseidx : s.taintIfBusy.phaseidx = s.phaseidx := rfl
@[simp] theorem State.taintIfBusy_sidx : s.taintIfBusy.sidx = s.sidx := rfl
@[simp] theorem State.taintIfBusy_lidx : s.taintIfBusy.lidx = s.lidx := rfl
@[simp] theorem State.taintIfBusy_gbusy : s.taintIfBusy.gbusy = s.gbusy := rfl
@[simp] theorem State.taintIfBusy_gidx : s.taintIfBusy.gidx = s.gidx := rfl
@[simp] theorem State.taintIfBusy_gtype : s.taintIfBusy.gtype = s.gtype := rfl
@[simp] theorem State.taintIfBusy_pend : s.taintIfBusy.pend = s.pend := rfl
@[simp] theorem State.taintIfBusy_taint : s.taintIfBusy.taint = (s.taint || s.gbusy) := rfl
@[simp] theorem State.taintIfBusy_sclkFreq : s.taintIfBusy.sclkFreq = s.sclkFreq := rfl
@[simp] theorem State.taintIfBusy_run : s.taintIfBusy.run = s.run := rfl
@[simp] theorem State.taintIfBusy_ie : s.taintIfBusy.ie = s.ie := rfl
@[simp] theorem State.taintIfBusy_ifFlag : s.taintIfBusy.ifFlag = s.ifFlag := rfl
@[simp] theorem State.taintIfBusy_cfgerr : s.taintIfBusy.cfgerr = s.cfgerr := rfl
@[simp] theorem State.taintIfBusy_pwmDuty : s.taintIfBusy.pwmDuty = s.pwmDuty := rfl
@[simp] theorem State.taintIfBusy_trig : s.taintIfBusy.trig = s.trig := rfl
@[simp] theorem State.taintIfBusy_halt : s.taintIfBusy.halt = s.halt := rfl
@[simp] theorem State.taintIfBusy_wtab : s.taintIfBusy.wtab = s.wtab := rfl
@[simp] theorem State.taintIfBusy_atab : s.taintIfBusy.atab = s.atab := rfl
@[simp] theorem State.taintIfBusy_port : s.taintIfBusy.port = s.port := rfl
@[simp] theorem State.taintIfBusy_turns : s.taintIfBusy.turns = s.turns := rfl
@[simp] theorem State.taintIfBusy_draws : s.taintIfBusy.draws = s.draws := rfl
@[simp] theorem State.taintIfBusy_history : s.taintIfBusy.history = s.history := rfl

/-! ### writeWT -/

@[simp] theorem State.writeWT_wtype (i : Nat) (v : Sample) : (s.writeWT i v).wtype = s.wtype := rfl
@[simp] theorem State.writeWT_freq (i : Nat) (v : Sample) : (s.writeWT i v).freq = s.freq := rfl
@[simp] theorem State.writeWT_ampl (i : Nat) (v : Sample) : (s.writeWT i v).ampl = s.ampl := rfl
@[simp] theorem State.writeWT_phase (i : Nat) (v : Sample) : (s.writeWT i v).phase = s.phase := rfl
@[simp] theorem State.writeWT_duty (i : Nat) (v : Sample) : (s.writeWT i v).duty = s.duty := rfl
@[simp] theorem State.writeWT_maxduty (i : Nat) (v : Sample) : (s.writeWT i v).maxduty = s.maxduty := rfl
@[simp] theorem State.writeWT_phaseidx (i : Nat) (v : Sample) : (s.writeWT i v).phaseidx = s.phaseidx := rfl
@[simp] theorem State.writeWT_sidx (i : Nat) (v : Sample) : (s.writeWT i v).sidx = s.sidx := rfl
@[simp] theorem State.writeWT_lidx (i : Nat) (v : Sample) : (s.writeWT i v).lidx = s.lidx := rfl
@[simp] theorem State.writeWT_gbusy (i : Nat) (v : Sample) : (s.writeWT i v).gbusy = s.gbusy := rfl
@[simp] theorem State.writeWT_gidx (i : Nat) (v : Sample) : (s.writeWT i v).gidx = s.gidx := rfl
@[simp] theorem State.writeWT_gtype (i : Nat) (v : Sample) : (s.writeWT i v).gtype = s.gtype := rfl
@[simp] theorem State.writeWT_pend (i : Nat) (v : Sample) : (s.writeWT i v).pend = s.pend := rfl
@[simp] theorem State.writeWT_taint (i : Nat) (v : Sample) : (s.writeWT i v).taint = s.taint := rfl
@[simp] theorem State.writeWT_sclkFreq (i : Nat) (v : Sample) : (s.writeWT i v).sclkFreq = s.sclkFreq := rfl
@[simp] theorem State.writeWT_run (i : Nat) (v : Sample) : (s.writeWT i v).run = s.run := rfl
@[simp] theorem State.writeWT_ie (i : Nat) (v : Sample) : (s.writeWT i v).ie = s.ie := rfl
@[simp] theorem State.writeWT_ifFlag (i : Nat) (v : Sample) : (s.writeWT i v).ifFlag = s.ifFlag := rfl
@[simp] theorem State.writeWT_cfgerr (i : Nat) (v : Sample) : (s.writeWT i v).cfgerr = s.cfgerr := rfl
@[simp] theorem State.writeWT_pwmDuty (i : Nat) (v : Sample) : (s.writeWT i v).pwmDuty = s.pwmDuty := rfl
@[simp] theorem State.writeWT_trig (i : Nat) (v : Sample) : (s.writeWT i v).trig = s.trig := rfl
@[simp] theorem State.writeWT_halt (i : Nat) (v : Sample) : (s.writeWT i v).halt = s.halt := rfl
@[simp] theorem State.writeWT_wtab (i : Nat) (v : Sample) : (s.writeWT i v).wtab = s.wtab.set i v := rfl
@[simp] theorem State.writeWT_atab (i : Nat) (v : Sample) : (s.writeWT i v).atab = s.atab := rfl
@[simp] theorem State.writeWT_port (i : Nat) (v : Sample) : (s.writeWT i v).port = s.port := rfl
@[simp] theorem State.writeWT_turns (i : Nat) (v : Sample) : (s.writeWT i v).turns = s.turns := rfl
@[simp] theorem State.writeWT_draws (i : Nat) (v : Sample) : (s.writeWT i v).draws = s.draws := rfl
@[simp] theorem State.writeWT_history (i : Nat) (v : Sample) : (s.writeWT i v).history = s.history := rfl

/-! ### writeAT -/

@[simp] theorem State.writeAT_wtype (i : Nat) (v : Sample) : (s.writeAT i v).wtype = s.wtype := rfl
@[simp] theorem State.writeAT_freq (i : Nat) (v : Sample) : (s.writeAT i v).freq = s.freq := rfl
@[simp] theorem State.writeAT_ampl (i : Nat) (v : Sample) : (s.writeAT i v).ampl = s.ampl := rfl
@[simp] theorem State.writeAT_phase (i : Nat) (v : Sample) : (s.writeAT i v).phase = s.phase := rfl
@[simp] theorem State.writeAT_duty (i : Nat) (v : Sample) : (s.writeAT i v).duty = s.duty := rfl
@[simp] theorem State.writeAT_maxduty (i : Nat) (v : Sample) : (s.writeAT i v).maxduty = s.maxduty := rfl
@[simp] theorem State.writeAT_phaseidx (i : Nat) (v : Sample) : (s.writeAT i v).phaseidx = s.phaseidx := rfl
@[simp] theorem State.writeAT_sidx (i : Nat) (v : Sample) : (s.writeAT i v).sidx = s.sidx := rfl
@[simp] theorem State.writeAT_lidx (i : Nat) (v : Sample) : (s.writeAT i v).lidx = s.lidx := rfl
@[simp] theorem State.writeAT_gbusy (i : Nat) (v : Sample) : (s.writeAT i v).gbusy = s.gbusy := rfl
@[simp] theorem State.writeAT_gidx (i : Nat) (v : Sample) : (s.writeAT i v).gidx = s.gidx := rfl
@[simp] theorem State.writeAT_gtype (i : Nat) (v : Sample) : (s.writeAT i v).gtype = s.gtype := rfl
@[simp] theorem State.writeAT_pend (i : Nat) (v : Sample) : (s.writeAT i v).pend = s.pend := rfl
@[simp] theorem State.writeAT_taint (i : Nat) (v : Sample) : (s.writeAT i v).taint = s.taint := rfl
@[simp] theorem State.writeAT_sclkFreq (i : Nat) (v : Sample) : (s.writeAT i v).sclkFreq = s.sclkFreq := rfl
@[simp] theorem State.writeAT_run (i : Nat) (v : Sample) : (s.writeAT i v).run = s.run := rfl
@[simp] theorem State.writeAT_ie (i : Nat) (v : Sample) : (s.writeAT i v).ie = s.ie := rfl
@[simp] theorem State.writeAT_ifFlag (i : Nat) (v : Sample) : (s.writeAT i v).ifFlag = s.ifFlag := rfl
@[simp] theorem State.writeAT_cfgerr (i : Nat) (v : Sample) : (s.writeAT i v).cfgerr = s.cfgerr := rfl
@[simp] theorem State.writeAT_pwmDuty (i : Nat) (v : Sample) : (s.writeAT i v).pwmDuty = s.pwmDuty := rfl
@[simp] theorem State.writeAT_trig (i : Nat) (v : Sample) : (s.writeAT i v).trig = s.trig := rfl
@[simp] theorem State.writeAT_halt (i : Nat) (v : Sample) : (s.writeAT i v).halt = s.halt := rfl
@[simp] theorem State.writeAT_wtab (i : Nat) (v : Sample) : (s.writeAT i v).wtab = s.wtab := rfl
@[simp] theorem State.writeAT_atab (i : Nat) (v : Sample) : (s.writeAT i v).atab = s.atab.set i v := rfl
@[simp] theorem State.writeAT_port (i : Nat) (v : Sample) : (s.writeAT i v).port = s.port := rfl
@[simp] theorem State.writeAT_turns (i : Nat) (v : Sample) : (s.writeAT i v).turns = s.turns := rfl
@[simp] theorem State.writeAT_draws (i : Nat) (v : Sample) : (s.writeAT i v).draws = s.draws := rfl
@[simp] theorem State.writeAT_history (i : Nat) (v : Sample) : (s.writeAT i v).history = s.history := rfl

/-! ### tickReturn -/

@[simp] theorem State.tickReturn_wtype : s.tickReturn.wtype = s.wtype := rfl
@[simp] theorem State.tickReturn_freq : s.tickReturn.freq = s.freq := rfl
@[simp] theorem State.tickReturn_ampl : s.tickReturn.ampl = s.ampl := rfl
@[simp] theorem State.tickReturn_phase : s.tickReturn.phase = s.phase := rfl
@[simp] theorem State.tickReturn_duty : s.tickReturn.duty = s.duty := rfl
@[simp] theorem State.tickReturn_maxduty : s.tickReturn.maxduty = s.maxduty := rfl
@[simp] theorem State.tickReturn_phaseidx : s.tickReturn.phaseidx = s.phaseidx := rfl
@[simp] theorem State.tickReturn_sidx : s.tickReturn.sidx = s.sidx := rfl
@[simp] theorem State.tickReturn_lidx : s.tickReturn.lidx = s.lidx := rfl
@[simp] theorem State.tickReturn_gbusy : s.tickReturn.gbusy = s.gbusy := rfl
@[simp] theorem State.tickReturn_gidx : s.tickReturn.gidx = s.gidx := rfl
@[simp] theorem State.tickReturn_gtype : s.tickReturn.gtype = s.gtype := rfl
@[simp] theorem State.tickReturn_pend : s.tickReturn.pend = s.pend := rfl
@[simp] theorem State.tickReturn_taint : s.tickReturn.taint = s.taint := rfl
@[simp] theorem State.tickReturn_sclkFreq : s.tickReturn.sclkFreq = s.sclkFreq := rfl
@[simp] theorem State.tickReturn_run : s.tickReturn.run = s.run := rfl
@[simp] theorem State.tickReturn_ie : s.tickReturn.ie = s.ie := rfl
@[simp] theorem State.tickReturn_ifFlag : s.tickReturn.ifFlag = false := rfl
@[simp] theorem State.tickReturn_cfgerr : s.tickReturn.cfgerr = s.cfgerr := rfl
@[simp] theorem State.tickReturn_pwmDuty : s.tickReturn.pwmDuty = s.pwmDuty := rfl
@[simp] theorem State.tickReturn_trig : s.tickReturn.trig = s.trig := rfl
@[simp] theorem State.tickReturn_halt : s.tickReturn.halt = s.halt := rfl
@[simp] theorem State.tickReturn_wtab : s.tickReturn.wtab = s.wtab := rfl
@[simp] theorem State.tickReturn_atab : s.tickReturn.atab = s.atab := rfl
@[simp] theorem State.tickReturn_port : s.tickReturn.port = s.port := rfl
@[simp] theorem State.tickReturn_turns : s.tickReturn.turns = s.turns := rfl
@[simp] theorem State.tickReturn_draws : s.tickReturn.draws = s.draws := rfl
@[simp] theorem State.tickReturn_history : s.tickReturn.history = s.history := rfl

/-! ### selectWave -/

@[simp] theorem State.selectWave_wtype (c : BitVec 3) : (s.selectWave c).wtype = c := rfl
@[simp] theorem State.selectWave_freq (c : BitVec 3) : (s.selectWave c).freq = s.freq := rfl
@[simp] theorem State.selectWave_ampl (c : BitVec 3) : (s.selectWave c).ampl = s.ampl := rfl
@[simp] theorem State.selectWave_phase (c : BitVec 3) : (s.selectWave c).phase = s.phase := rfl
@[simp] theorem State.selectWave_duty (c : BitVec 3) : (s.selectWave c).duty = s.duty := rfl
@[simp] theorem State.selectWave_maxduty (c : BitVec 3) : (s.selectWave c).maxduty = s.maxduty := rfl
@[simp] theorem State.selectWave_phaseidx (c : BitVec 3) : (s.selectWave c).phaseidx = s.phaseidx := rfl
@[simp] theorem State.selectWave_sidx (c : BitVec 3) : (s.selectWave c).sidx = s.sidx := rfl
@[simp] theorem State.selectWave_lidx (c : BitVec 3) : (s.selectWave c).lidx = s.lidx := rfl
@[simp] theorem State.selectWave_gbusy (c : BitVec 3) : (s.selectWave c).gbusy = s.gbusy := rfl
@[simp] theorem State.selectWave_gidx (c : BitVec 3) : (s.selectWave c).gidx = s.gidx := rfl
@[simp] theorem State.selectWave_gtype (c : BitVec 3) : (s.selectWave c).gtype = s.gtype := rfl
@[simp] theorem State.selectWave_pend (c : BitVec 3) : (s.selectWave c).pend = s.pend := rfl
@[simp] theorem State.selectWave_taint (c : BitVec 3) : (s.selectWave c).taint = (s.taint || s.gbusy) := rfl
@[simp] theorem State.selectWave_sclkFreq (c : BitVec 3) : (s.selectWave c).sclkFreq = s.sclkFreq := rfl
@[simp] theorem State.selectWave_run (c : BitVec 3) : (s.selectWave c).run = s.run := rfl
@[simp] theorem State.selectWave_ie (c : BitVec 3) : (s.selectWave c).ie = s.ie := rfl
@[simp] theorem State.selectWave_ifFlag (c : BitVec 3) : (s.selectWave c).ifFlag = s.ifFlag := rfl
@[simp] theorem State.selectWave_cfgerr (c : BitVec 3) : (s.selectWave c).cfgerr = s.cfgerr := rfl
@[simp] theorem State.selectWave_pwmDuty (c : BitVec 3) : (s.selectWave c).pwmDuty = s.pwmDuty := rfl
@[simp] theorem State.selectWave_trig (c : BitVec 3) : (s.selectWave c).trig = s.trig := rfl
@[simp] theorem State.selectWave_halt (c : BitVec 3) : (s.selectWave c).halt = s.halt := rfl
@[simp] theorem State.selectWave_wtab (c : BitVec 3) : (s.selectWave c).wtab = s.wtab := rfl
@[simp] theorem State.selectWave_atab (c : BitVec 3) : (s.selectWave c).atab = s.atab := rfl
@[simp] theorem State.selectWave_port (c : BitVec 3) : (s.selectWave c).port = s.port := rfl
@[simp] theorem State.selectWave_turns (c : BitVec 3) : (s.selectWave c).turns = s.turns := rfl
@[simp] theorem State.selectWave_draws (c : BitVec 3) : (s.selectWave c).draws = s.draws := rfl
@[simp] theorem State.selectWave_history (c : BitVec 3) : (s.selectWave c).history = s.history := rfl

/-! ### serveTick -/

@[simp] theorem State.serveTick_wtype (v : Sample) : (s.serveTick v).wtype = s.wtype := rfl
@[simp] theorem State.serveTick_freq (v : Sample) : (s.serveTick v).freq = s.freq := rfl
@[simp] theorem State.serveTick_ampl (v : Sample) : (s.serveTick v).ampl = s.ampl := rfl
@[simp] theorem State.serveTick_phase (v : Sample) : (s.serveTick v).phase = s.phase := rfl
@[simp] theorem State.serveTick_duty (v : Sample) : (s.serveTick v).duty = s.duty := rfl
@[simp] theorem State.serveTick_maxduty (v : Sample) : (s.serveTick v).maxduty = s.maxduty := rfl
@[simp] theorem State.serveTick_phaseidx (v : Sample) : (s.serveTick v).phaseidx = s.phaseidx := rfl
@[simp] theorem State.serveTick_sidx (v : Sample) : (s.serveTick v).sidx = BitVec.ofNat 9 (nextIndex s.sidx.toNat) := rfl
@[simp] theorem State.serveTick_lidx (v : Sample) : (s.serveTick v).lidx = s.lidx := rfl
@[simp] theorem State.serveTick_gbusy (v : Sample) : (s.serveTick v).gbusy = s.gbusy := rfl
@[simp] theorem State.serveTick_gidx (v : Sample) : (s.serveTick v).gidx = s.gidx := rfl
@[simp] theorem State.serveTick_gtype (v : Sample) : (s.serveTick v).gtype = s.gtype := rfl
@[simp] theorem State.serveTick_pend (v : Sample) : (s.serveTick v).pend = s.pend := rfl
@[simp] theorem State.serveTick_taint (v : Sample) : (s.serveTick v).taint = s.taint := rfl
@[simp] theorem State.serveTick_sclkFreq (v : Sample) : (s.serveTick v).sclkFreq = s.sclkFreq := rfl
@[simp] theorem State.serveTick_run (v : Sample) : (s.serveTick v).run = s.run := rfl
@[simp] theorem State.serveTick_ie (v : Sample) : (s.serveTick v).ie = s.ie := rfl
@[simp] theorem State.serveTick_ifFlag (v : Sample) : (s.serveTick v).ifFlag = false := rfl
@[simp] theorem State.serveTick_cfgerr (v : Sample) : (s.serveTick v).cfgerr = s.cfgerr := rfl
@[simp] theorem State.serveTick_pwmDuty (v : Sample) : (s.serveTick v).pwmDuty = v := rfl
@[simp] theorem State.serveTick_trig (v : Sample) : (s.serveTick v).trig = inWindow s.sidx.toNat s.phaseidx.toNat := rfl
@[simp] theorem State.serveTick_halt (v : Sample) : (s.serveTick v).halt = s.halt := rfl
@[simp] theorem State.serveTick_wtab (v : Sample) : (s.serveTick v).wtab = s.wtab := rfl
@[simp] theorem State.serveTick_atab (v : Sample) : (s.serveTick v).atab = s.atab := rfl
@[simp] theorem State.serveTick_port (v : Sample) : (s.serveTick v).port = s.port := rfl
@[simp] theorem State.serveTick_turns (v : Sample) : (s.serveTick v).turns = s.turns := rfl
@[simp] theorem State.serveTick_draws (v : Sample) : (s.serveTick v).draws = s.draws := rfl
@[simp] theorem State.serveTick_history (v : Sample) : (s.serveTick v).history = .trigger (inWindow s.sidx.toNat s.phaseidx.toNat) :: .setDutyCycle v :: s.history := rfl

/-! ### readWT -/

@[simp] theorem State.readWT_wtype (i : Nat) : (s.readWT i).2.wtype = s.wtype := by
  unfold State.readWT; split <;> rfl
@[simp] theorem State.readWT_freq (i : Nat) : (s.readWT i).2.freq = s.freq := by
  unfold State.readWT; split <;> rfl
@[simp] theorem State.readWT_ampl (i : Nat) : (s.readWT i).2.ampl = s.ampl := by
  unfold State.readWT; split <;> rfl
@[simp] theorem State.readWT_phase (i : Nat) : (s.readWT i).2.phase = s.phase := by
  unfold State.readWT; split <;> rfl
@[simp] theorem State.readWT_duty (i : Nat) : (s.readWT i).2.duty = s.duty := by
  unfold State.readWT; split <;> rfl
@[simp] theorem State.readWT_maxduty (i : Nat) : (s.readWT i).2.maxduty = s.maxduty := by
  unfold State.readWT; split <;> rfl
@[simp] theorem State.readWT_phaseidx (i : Nat) : (s.readWT i).2.phaseidx = s.phaseidx := by
  unfold State.readWT; split <;> rfl
@[simp] theorem State.readWT_sidx (i : Nat) : (s.readWT i).2.sidx = s.sidx := by
  unfold State.readWT; split <;> rfl
@[simp] theorem State.readWT_lidx (i : Nat) : (s.readWT i).2.lidx = s.lidx := by
  unfold State.readWT; split <;> rfl
@[simp] theorem State.readWT_gbusy (i : Nat) : (s.readWT i).2.gbusy = s.gbusy := by
  unfold State.readWT; split <;> rfl
@[simp] theorem State.readWT_gidx (i : Nat) : (s.readWT i).2.gidx = s.gidx := by
  unfold State.readWT; split <;> rfl
@[simp] theorem State.readWT_gtype (i : Nat) : (s.readWT i).2.gtype = s.gtype := by
  unfold State.readWT; split <;> rfl
@[simp] theorem State.readWT_pend (i : Nat) : (s.readWT i).2.pend = s.pend := by
  unfold State.readWT; split <;> rfl
@[simp] theorem State.readWT_taint (i : Nat) : (s.readWT i).2.taint = s.taint := by
  unfold State.readWT; split <;> rfl
@[simp] theorem State.readWT_sclkFreq (i : Nat) : (s.readWT i).2.sclkFreq = s.sclkFreq := by
  unfold State.readWT; split <;> rfl
@[simp] theorem State.readWT_run (i : Nat) : (s.readWT i).2.run = s.run := by
  unfold State.readWT; split <;> rfl
@[simp] theorem State.readWT_ie (i : Nat) : (s.readWT i).2.ie = s.ie := by
  unfold State.readWT; split <;> rfl
@[simp] theorem State.readWT_ifFlag (i : Nat) : (s.readWT i).2.ifFlag = s.ifFlag := by
  unfold State.readWT; split <;> rfl
@[simp] theorem State.readWT_cfgerr (i : Nat) : (s.readWT i).2.cfgerr = s.cfgerr := by
  unfold State.readWT; split <;> rfl
@[simp] theorem State.readWT_pwmDuty (i : Nat) : (s.readWT i).2.pwmDuty = s.pwmDuty := by
  unfold State.readWT; split <;> rfl
@[simp] theorem State.readWT_trig (i : Nat) : (s.readWT i).2.trig = s.trig := by
  unfold State.readWT; split <;> rfl
@[simp] theorem State.readWT_halt (i : Nat) : (s.readWT i).2.halt = s.halt := by
  unfold State.readWT; split <;> rfl
@[simp] theorem State.readWT_wtab (i : Nat) : (s.readWT i).2.wtab = s.wtab := by
  unfold State.readWT; split <;> rfl
@[simp] theorem State.readWT_atab (i : Nat) : (s.readWT i).2.atab = s.atab := by
  unfold State.readWT; split <;> rfl
@[simp] theorem State.readWT_port (i : Nat) : (s.readWT i).2.port = s.port := by
  unfold State.readWT; split <;> rfl
@[simp] theorem State.readWT_turns (i : Nat) : (s.readWT i).2.turns = s.turns := by
  unfold State.readWT; split <;> rfl
@[simp] theorem State.readWT_history (i : Nat) : (s.readWT i).2.history = s.history := by
  unfold State.readWT; split <;> rfl

/-! ### readAT -/

@[simp] theorem State.readAT_wtype (i : Nat) : (s.readAT i).2.wtype = s.wtype := by
  unfold State.readAT; split <;> rfl
@[simp] theorem State.readAT_freq (i : Nat) : (s.readAT i).2.freq = s.freq := by
  unfold State.readAT; split <;> rfl
@[simp] theorem State.readAT_ampl (i : Nat) : (s.readAT i).2.ampl = s.ampl := by
  unfold State.readAT; split <;> rfl
@[simp] theorem State.readAT_phase (i : Nat) : (s.readAT i).2.phase = s.phase := by
  unfold State.readAT; split <;> rfl
@[simp] theorem State.readAT_duty (i : Nat) : (s.readAT i).2.duty = s.duty := by
  unfold State.readAT; split <;> rfl
@[simp] theorem State.readAT_maxduty (i : Nat) : (s.readAT i).2.maxduty = s.maxduty := by
  unfold State.readAT; split <;> rfl
@[simp] theorem State.readAT_phaseidx (i : Nat) : (s.readAT i).2.phaseidx = s.phaseidx := by
  unfold State.readAT; split <;> rfl
@[simp] theorem State.readAT_sidx (i : Nat) : (s.readAT i).2.sidx = s.sidx := by
  unfold State.readAT; split <;> rfl
@[simp] theorem State.readAT_lidx (i : Nat) : (s.readAT i).2.lidx = s.lidx := by
  unfold State.readAT; split <;> rfl
@[simp] theorem State.readAT_gbusy (i : Nat) : (s.readAT i).2.gbusy = s.gbusy := by
  unfold State.readAT; split <;> rfl
@[simp] theorem State.readAT_gidx (i : Nat) : (s.readAT i).2.gidx = s.gidx := by
  unfold State.readAT; split <;> rfl
@[simp] theorem State.readAT_gtype (i : Nat) : (s.readAT i).2.gtype = s.gtype := by
  unfold State.readAT; split <;> rfl
@[simp] theorem State.readAT_pend (i : Nat) : (s.readAT i).2.pend = s.pend := by
  unfold State.readAT; split <;> rfl
@[simp] theorem State.readAT_taint (i : Nat) : (s.readAT i).2.taint = s.taint := by
  unfold State.readAT; split <;> rfl
@[simp] theorem State.readAT_sclkFreq (i : Nat) : (s.readAT i).2.sclkFreq = s.sclkFreq := by
  unfold State.readAT; split <;> rfl
@[simp] theorem State.readAT_run (i : Nat) : (s.readAT i).2.run = s.run := by
  unfold State.readAT; split <;> rfl
@[simp] theorem State.readAT_ie (i : Nat) : (s.readAT i).2.ie = s.ie := by
  unfold State.readAT; split <;> rfl
@[simp] theorem State.readAT_ifFlag (i : Nat) : (s.readAT i).2.ifFlag = s.ifFlag := by
  unfold State.readAT; split <;> rfl
@[simp] theorem State.readAT_cfgerr (i : Nat) : (s.readAT i).2.cfgerr = s.cfgerr := by
  unfold State.readAT; split <;> rfl
@[simp] theorem State.readAT_pwmDuty (i : Nat) : (s.readAT i).2.pwmDuty = s.pwmDuty := by
  unfold State.readAT; split <;> rfl
@[simp] theorem State.readAT_trig (i : Nat) : (s.readAT i).2.trig = s.trig := by
  unfold State.readAT; split <;> rfl
@[simp] theorem State.readAT_halt (i : Nat) : (s.readAT i).2.halt = s.halt := by
  unfold State.readAT; split <;> rfl
@[simp] theorem State.readAT_wtab (i : Nat) : (s.readAT i).2.wtab = s.wtab := by
  unfold State.readAT; split <;> rfl
@[simp] theorem State.readAT_atab (i : Nat) : (s.readAT i).2.atab = s.atab := by
  unfold State.readAT; split <;> rfl
@[simp] theorem State.readAT_port (i : Nat) : (s.readAT i).2.port = s.port := by
  unfold State.readAT; split <;> rfl
@[simp] theorem State.readAT_turns (i : Nat) : (s.readAT i).2.turns = s.turns := by
  unfold State.readAT; split <;> rfl
@[simp] theorem State.readAT_history (i : Nat) : (s.readAT i).2.history = s.history := by
  unfold State.readAT; split <;> rfl

/-! ### endTurn -/

@[simp] theorem State.endTurn_wtype : s.endTurn.wtype = s.wtype := by
  unfold State.endTurn; split <;> rfl
@[simp] theorem State.endTurn_freq : s.endTurn.freq = s.freq := by
  unfold State.endTurn; split <;> rfl
@[simp] theorem State.endTurn_ampl : s.endTurn.ampl = s.ampl := by
  unfold State.endTurn; split <;> rfl
@[simp] theorem State.endTurn_phase : s.endTurn.phase = s.phase := by
  unfold State.endTurn; split <;> rfl
@[simp] theorem State.endTurn_duty : s.endTurn.duty = s.duty := by
  unfold State.endTurn; split <;> rfl
@[simp] theorem State.endTurn_maxduty : s.endTurn.maxduty = s.maxduty := by
  unfold State.endTurn; split <;> rfl
@[simp] theorem State.endTurn_phaseidx : s.endTurn.phaseidx = s.phaseidx := by
  unfold State.endTurn; split <;> rfl
@[simp] theorem State.endTurn_sidx : s.endTurn.sidx = s.sidx := by
  unfold State.endTurn; split <;> rfl
@[simp] theorem State.endTurn_lidx : s.endTurn.lidx = s.lidx := by
  unfold State.endTurn; split <;> rfl
@[simp] theorem State.endTurn_gbusy : s.endTurn.gbusy = s.gbusy := by
  unfold State.endTurn; split <;> rfl
@[simp] theorem State.endTurn_gidx : s.endTurn.gidx = s.gidx := by
  unfold State.endTurn; split <;> rfl
@[simp] theorem State.endTurn_gtype : s.endTurn.gtype = s.gtype := by
  unfold State.endTurn; split <;> rfl
@[simp] theorem State.endTurn_pend : s.endTurn.pend = s.pend := by
  unfold State.endTurn; split <;> rfl
@[simp] theorem State.endTurn_taint : s.endTurn.taint = s.taint := by
  unfold State.endTurn; split <;> rfl
@[simp] theorem State.endTurn_sclkFreq : s.endTurn.sclkFreq = s.sclkFreq := by
  unfold State.endTurn; split <;> rfl
@[simp] theorem State.endTurn_run : s.endTurn.run = s.run := by
  unfold State.endTurn; split <;> rfl
@[simp] theorem State.endTurn_ie : s.endTurn.ie = s.ie := by
  unfold State.endTurn; split <;> rfl
@[simp] theorem State.endTurn_ifFlag : s.endTurn.ifFlag = s.ifFlag := by
  unfold State.endTurn; split <;> rfl
@[simp] theorem State.endTurn_cfgerr : s.endTurn.cfgerr = s.cfgerr := by
  unfold State.endTurn; split <;> rfl
@[simp] theorem State.endTurn_pwmDuty : s.endTurn.pwmDuty = s.pwmDuty := by
  unfold State.endTurn; split <;> rfl
@[simp] theorem State.endTurn_trig : s.endTurn.trig = s.trig := by
  unfold State.endTurn; split <;> rfl
@[simp] theorem State.endTurn_halt : s.endTurn.halt = s.halt := by
  unfold State.endTurn; split <;> rfl
@[simp] theorem State.endTurn_wtab : s.endTurn.wtab = s.wtab := by
  unfold State.endTurn; split <;> rfl
@[simp] theorem State.endTurn_atab : s.endTurn.atab = s.atab := by
  unfold State.endTurn; split <;> rfl
@[simp] theorem State.endTurn_port : s.endTurn.port = s.port := by
  unfold State.endTurn; split <;> rfl
@[simp] theorem State.endTurn_history : s.endTurn.history = s.history := by
  unfold State.endTurn; split <;> rfl

/-! ### putSample -/

@[simp] theorem State.putSample_wtype (v : Nat) : (s.putSample v).wtype = s.wtype := by
  unfold State.putSample; split <;> rfl
@[simp] theorem State.putSample_freq (v : Nat) : (s.putSample v).freq = s.freq := by
  unfold State.putSample; split <;> rfl
@[simp] theorem State.putSample_ampl (v : Nat) : (s.putSample v).ampl = s.ampl := by
  unfold State.putSample; split <;> rfl
@[simp] theorem State.putSample_phase (v : Nat) : (s.putSample v).phase = s.phase := by
  unfold State.putSample; split <;> rfl
@[simp] theorem State.putSample_duty (v : Nat) : (s.putSample v).duty = s.duty := by
  unfold State.putSample; split <;> rfl
@[simp] theorem State.putSample_maxduty (v : Nat) : (s.putSample v).maxduty = s.maxduty := by
  unfold State.putSample; split <;> rfl
@[simp] theorem State.putSample_phaseidx (v : Nat) : (s.putSample v).phaseidx = s.phaseidx := by
  unfold State.putSample; split <;> rfl
@[simp] theorem State.putSample_sidx (v : Nat) : (s.putSample v).sidx = s.sidx := by
  unfold State.putSample; split <;> rfl
@[simp] theorem State.putSample_lidx (v : Nat) : (s.putSample v).lidx = s.lidx := by
  unfold State.putSample; split <;> rfl
@[simp] theorem State.putSample_gbusy (v : Nat) : (s.putSample v).gbusy = s.gbusy := by
  unfold State.putSample; split <;> rfl
@[simp] theorem State.putSample_gidx (v : Nat) : (s.putSample v).gidx = BitVec.ofNat 9 (s.gidx.toNat + 1) := by
  unfold State.putSample; split <;> rfl
@[simp] theorem State.putSample_gtype (v : Nat) : (s.putSample v).gtype = s.gtype := by
  unfold State.putSample; split <;> rfl
@[simp] theorem State.putSample_pend (v : Nat) : (s.putSample v).pend = s.pend := by
  unfold State.putSample; split <;> rfl
@[simp] theorem State.putSample_taint (v : Nat) : (s.putSample v).taint = s.taint := by
  unfold State.putSample; split <;> rfl
@[simp] theorem State.putSample_sclkFreq (v : Nat) : (s.putSample v).sclkFreq = s.sclkFreq := by
  unfold State.putSample; split <;> rfl
@[simp] theorem State.putSample_run (v : Nat) : (s.putSample v).run = s.run := by
  unfold State.putSample; split <;> rfl
@[simp] theorem State.putSample_ie (v : Nat) : (s.putSample v).ie = s.ie := by
  unfold State.putSample; split <;> rfl
@[simp] theorem State.putSample_ifFlag (v : Nat) : (s.putSample v).ifFlag = s.ifFlag := by
  unfold State.putSample; split <;> rfl
@[simp] theorem State.putSample_cfgerr (v : Nat) : (s.putSample v).cfgerr = s.cfgerr := by
  unfold State.putSample; split <;> rfl
@[simp] theorem State.putSample_pwmDuty (v : Nat) : (s.putSample v).pwmDuty = s.pwmDuty := by
  unfold State.putSample; split <;> rfl
@[simp] theorem State.putSample_trig (v : Nat) : (s.putSample v).trig = s.trig := by
  unfold State.putSample; split <;> rfl
@[simp] theorem State.putSample_halt (v : Nat) : (s.putSample v).halt = s.halt := by
  unfold State.putSample; split <;> rfl
@[simp] theorem State.putSample_atab (v : Nat) : (s.putSample v).atab = s.atab := by
  unfold State.putSample; split <;> rfl
@[simp] theorem State.putSample_port (v : Nat) : (s.putSample v).port = s.port := by
  unfold State.putSample; split <;> rfl
@[simp] theorem State.putSample_turns (v : Nat) : (s.putSample v).turns = s.turns := by
  unfold State.putSample; split <;> rfl
@[simp] theorem State.putSample_history (v : Nat) : (s.putSample v).history = s.history := by
  unfold State.putSample; split <;> rfl

/-! ### The open fields of the updates that branch -/

@[simp] theorem State.draw_value : (s.draw).1 = Config.any16 s.draws := rfl

theorem State.endTurn_of_cons {a : Agent} {rest : List Agent} (h : s.turns = a :: rest) :
    s.endTurn = { s with turns := rest } := by simp [State.endTurn, h]

theorem State.turn_of_cons {a : Agent} {rest : List Agent} (h : s.turns = a :: rest) : s.turn = a := by
  simp [State.turn, h]

end Sys2Proof.Machine
end

