-- ==== Sys2Proof/Laws/Ops.lean ====
section
/-! SUPPORT. One lemma per shared operation: everything it can do. -/

namespace Sys2Proof.Machine

variable {s t : State}

theorem State.tickEnabled_of_live (h : s.halt = false) : s.tickEnabled = (s.ifFlag && s.ie) := by
  simp [State.tickEnabled, h]

/-- A host command or engine operation answers a next state exactly when its guards hold and its effect does. -/
theorem taskStep_next {own : Bool} {r : Result} :
    taskStep s own r = .next t ↔
      s.halt = false ∧ (s.ifFlag && s.ie) = false ∧ own = true ∧ r = .next t := by
  unfold taskStep State.tickEnabled
  cases s.halt <;> cases s.ifFlag <;> cases s.ie <;> cases own <;> simp

/-- With HALT = 0 and no TICK enabled, a true guard of its own gives its effect. -/
theorem taskStep_of_free {own : Bool} {r : Result} (h : s.halt = false) (ht : (s.ifFlag && s.ie) = false)
    (ho : own = true) : taskStep s own r = r := by
  simp [taskStep, State.tickEnabled, h, ht, ho]

theorem taskStep_of_tick {own : Bool} {r : Result} (h : s.halt = false) (hi : s.ifFlag = true) (he : s.ie = true) :
    taskStep s own r = .refused .heldByTick := by
  simp [taskStep, State.tickEnabled, h, hi, he]

theorem taskStep_of_halt {own : Bool} {r : Result} (h : s.halt = true) : taskStep s own r = .fault .halted := by
  simp [taskStep, h]

theorem hardwareStep_next {own : Bool} {r : Result} :
    hardwareStep s own r = .next t ↔ s.halt = false ∧ own = true ∧ r = .next t := by
  unfold hardwareStep
  cases s.halt <;> cases own <;> simp

theorem hardwareStep_of_live {own : Bool} {r : Result} (h : s.halt = false) (ho : own = true) :
    hardwareStep s own r = r := by
  simp [hardwareStep, h, ho]

theorem hardwareStep_of_halt {own : Bool} {r : Result} (h : s.halt = true) :
    hardwareStep s own r = .fault .halted := by
  simp [hardwareStep, h]

theorem withEntry_next {i : Nat} {r : Result} : withEntry i r = .next t ↔ i < N ∧ r = .next t := by
  unfold withEntry
  split
  · next h => simp [h]
  · next h => simp [h]

theorem accept_next : accept s = .next t ↔ s.report .ok = t := by simp [accept]

theorem reject_next {c : ReportCode} : reject c s = .next t ↔ s.report c = t := by simp [reject]

/-- A read of WT: the entry's value and nothing changed, or a draw and the counter advanced. -/
theorem State.readWT_cases (s : State) (i : Nat) :
    (∃ v, s.wtab.get? i = some v ∧ s.readWT i = (v, s)) ∨
      (s.wtab.get? i = none ∧ s.readWT i = (Config.any16 s.draws, { s with draws := s.draws + 1 })) := by
  unfold State.readWT
  cases h : s.wtab.get? i with
  | none => exact .inr ⟨rfl, rfl⟩
  | some v => exact .inl ⟨v, rfl, rfl⟩

/-- A read of AT, likewise. -/
theorem State.readAT_cases (s : State) (i : Nat) :
    (∃ v, s.atab.get? i = some v ∧ s.readAT i = (v, s)) ∨
      (s.atab.get? i = none ∧ s.readAT i = (Config.any16 s.draws, { s with draws := s.draws + 1 })) := by
  unfold State.readAT
  cases h : s.atab.get? i with
  | none => exact .inr ⟨rfl, rfl⟩
  | some v => exact .inl ⟨v, rfl, rfl⟩

theorem State.putSample_clean (h : s.taint = false) (v : Nat) :
    s.putSample v = { s with wtab := s.wtab.set s.gidx.toNat (BitVec.ofNat 16 v),
                             gidx := BitVec.ofNat 9 (s.gidx.toNat + 1) } := by
  simp [State.putSample, h, State.writeWT]

theorem State.putSample_tainted (h : s.taint = true) (v : Nat) :
    s.putSample v = { s with wtab := s.wtab.set s.gidx.toNat (Config.any16 s.draws),
                             gidx := BitVec.ofNat 9 (s.gidx.toNat + 1), draws := s.draws + 1 } := by
  simp [State.putSample, h, State.writeWT, State.draw]

/-- A generator's tail stores one sample at GIDX, the computed one or a draw. -/
theorem State.putSample_wtab (s : State) (v : Nat) :
    ∃ w, (s.putSample v).wtab = s.wtab.set s.gidx.toNat w ∧
      (s.taint = false → w = BitVec.ofNat 16 v ∧ (s.putSample v).draws = s.draws) := by
  cases h : s.taint with
  | false => exact ⟨_, by rw [State.putSample_clean h], fun _ => ⟨rfl, by rw [State.putSample_clean h]⟩⟩
  | true => exact ⟨_, by rw [State.putSample_tainted h], fun h' => by simp at h'⟩

/-- The generators' shared guard, as facts. -/
theorem State.generating_iff {c : BitVec 3} :
    s.generating c = true ↔ s.gbusy = true ∧ s.gidx.toNat < 400 ∧ s.gtype = c := by
  simp [State.generating, and_assoc]

theorem State.done_iff : s.done = true ↔ s.gidx.toNat = 400 := by simp [State.done]

/-- GIDX's increment does not wrap while the pass is on the table. -/
theorem gidx_succ {g : BitVec 9} (h : g.toNat < 400) : (BitVec.ofNat 9 (g.toNat + 1)).toNat = g.toNat + 1 := by
  simp; omega

theorem nextIndex_lt (i : Nat) : nextIndex i < 400 := Nat.mod_lt _ (by decide)

@[simp] theorem nextIndex_toNat (i : Nat) : (BitVec.ofNat 9 (nextIndex i)).toNat = nextIndex i := by
  have := nextIndex_lt i
  simp; omega

theorem dutyMax_range : 1 ≤ Config.dutyMax ∧ Config.dutyMax ≤ 65535 := by
  have := Config.dutyMaxLessOne.isLt
  unfold Config.dutyMax; omega

theorem dutyCeiling_le {n : Nat} (h : n ≤ 33) : dutyCeiling n ≤ Config.dutyMax := by
  unfold dutyCeiling
  calc Config.dutyMax * n / 33 ≤ Config.dutyMax * 33 / 33 := Nat.div_le_div_right (Nat.mul_le_mul_left _ h)
    _ = Config.dutyMax := Nat.mul_div_cancel _ (by decide)

theorem sclkRepresentable_range {f : Nat} (h : Config.sclkRepresentable f = true) : 0 < f ∧ f ≤ 120000 := by
  simp [Config.sclkRepresentable] at h; exact h.1

theorem sclkRepresentable_zero : Config.sclkRepresentable 0 = false := by simp [Config.sclkRepresentable]

theorem dutyIndex_eq (d : Nat) : dutyIndex d = 4 * d := by simp only [dutyIndex, N]; omega

end Sys2Proof.Machine
end

