-- ==== Sys2Proof/Laws/Exec.lean ====
section
/-! SUPPORT. One inversion lemma per meaning: when it answers a next state, its guards held and the state is one of the
named ones. Invariants cite these and never unfold a meaning. -/

namespace Sys2Proof.Machine

variable {s t : State}

/-- HALT = 0 and no TICK enabled (R130). -/
abbrev State.Free (s : State) : Prop := s.halt = false ∧ (s.ifFlag && s.ie) = false

theorem exec_setf_next {n : Imm16} (h : exec (.setf n) s = .next t) : s.Free ∧
    ((300 < n.toNat ∧ t = s.report .invalidFrequency) ∨
     (n.toNat = 0 ∧ t = State.report (State.taintIfBusy { s with freq := 0, wtype := 0 }) .ok) ∨
     (0 < n.toNat ∧ n.toNat ≤ 300 ∧ t = State.report { s with freq := BitVec.ofNat 9 n.toNat } .ok)) := by
  simp only [exec, execSetf, taskStep_next, FREQ_MAX] at h
  obtain ⟨h1, h2, -, h⟩ := h
  refine ⟨⟨h1, h2⟩, ?_⟩
  split at h
  · next hn => exact .inl ⟨hn, (reject_next.1 h).symm⟩
  · next hn =>
    rw [accept_next] at h
    split at h
    · next h0 => exact .inr (.inl ⟨h0, by rw [← h, h0]; rfl⟩)
    · next h0 => exact .inr (.inr ⟨by omega, by omega, h.symm⟩)

theorem exec_setv_next {n : Imm16} (h : exec (.setv n) s = .next t) : s.Free ∧
    ((33 < n.toNat ∧ t = s.report .invalidAmplitude) ∨
     (n.toNat = 0 ∧ t = State.report (State.taintIfBusy { s with ampl := 0, maxduty := 0, wtype := 0 }) .ok) ∨
     (0 < n.toNat ∧ n.toNat ≤ 33 ∧ t = State.report (State.taintIfBusy { s with
        ampl := BitVec.ofNat 6 n.toNat, maxduty := BitVec.ofNat 16 (dutyCeiling n.toNat) }) .ok)) := by
  simp only [exec, execSetv, taskStep_next, AMP_MAX] at h
  obtain ⟨h1, h2, -, h⟩ := h
  refine ⟨⟨h1, h2⟩, ?_⟩
  split at h
  · next hn => exact .inl ⟨hn, (reject_next.1 h).symm⟩
  · next hn =>
    rw [accept_next] at h
    split at h
    · next h0 => exact .inr (.inl ⟨h0, by rw [← h, h0]; simp [dutyCeiling]⟩)
    · next h0 => exact .inr (.inr ⟨by omega, by omega, h.symm⟩)

theorem exec_setp_next {n : Imm16} (h : exec (.setp n) s = .next t) : s.Free ∧
    ((360 < n.toNat ∧ t = s.report .invalidPhase) ∨
     (n.toNat ≤ 360 ∧ ∃ p, p < 360 ∧ t = State.report { s with
        phase := BitVec.ofNat 9 p, phaseidx := BitVec.ofNat 9 (p * 400 / 360) } .ok)) := by
  simp only [exec, execSetp, taskStep_next, PHASE_MAX] at h
  obtain ⟨h1, h2, -, h⟩ := h
  refine ⟨⟨h1, h2⟩, ?_⟩
  split at h
  · next hn => exact .inl ⟨hn, (reject_next.1 h).symm⟩
  · next hn =>
    rw [accept_next] at h
    refine .inr ⟨by omega, normalPhase n.toNat, ?_, h.symm⟩
    unfold normalPhase PHASE_MAX; split <;> omega

theorem exec_setd_next {n : Imm16} (h : exec (.setd n) s = .next t) : s.Free ∧
    ((100 < n.toNat ∧ t = s.report .invalidDuty) ∨
     (n.toNat ≤ 100 ∧ t = State.report (State.taintIfBusy { s with duty := BitVec.ofNat 7 n.toNat }) .ok)) := by
  simp only [exec, execSetd, taskStep_next, DUTYPCT_MAX] at h
  obtain ⟨h1, h2, -, h⟩ := h
  refine ⟨⟨h1, h2⟩, ?_⟩
  split at h
  · next hn => exact .inl ⟨hn, (reject_next.1 h).symm⟩
  · next hn => exact .inr ⟨by omega, (accept_next.1 h).symm⟩

/-- The five wave-type commands: the code each writes. -/
def waveCode : Instr → Option (BitVec 3)
  | .wsin => some 1
  | .wtri => some 3
  | .wsqr => some 2
  | .warb => some 4
  | .woff => some 0
  | .setf _ | .setv _ | .setp _ | .setd _ | .stop | .regen | .lbeg | .lpush _ => none
  | .gStart | .gOff | .gSine | .gSqr | .gTri | .gArb | .gFin | .tFire | .tick => none

theorem exec_wave_next {i : Instr} {c : BitVec 3} (hc : waveCode i = some c) (h : exec i s = .next t) :
    s.Free ∧ c.toNat ≤ 4 ∧ t = State.report (s.selectWave c) .ok := by
  cases i <;> simp only [waveCode, Option.some.injEq, reduceCtorEq] at hc <;> subst hc <;>
    (simp only [exec, execWsin, execWtri, execWsqr, execWarb, execWoff, taskStep_next, accept_next] at h
     exact ⟨⟨h.1, h.2.1⟩, by decide, h.2.2.2.symm⟩)

theorem exec_stop_next (h : exec .stop s = .next t) : s.Free ∧ t = State.report { s with run := false } .ok := by
  simp only [exec, execStop, taskStep_next, accept_next] at h
  exact ⟨⟨h.1, h.2.1⟩, h.2.2.2.symm⟩

theorem exec_regen_next (h : exec .regen s = .next t) : s.Free ∧ t = State.report { s with pend := true } .ok := by
  simp only [exec, execRegen, taskStep_next, accept_next] at h
  exact ⟨⟨h.1, h.2.1⟩, h.2.2.2.symm⟩

theorem exec_lbeg_next (h : exec .lbeg s = .next t) : s.Free ∧ t = State.report { s with lidx := 0 } .ok := by
  simp only [exec, execLbeg, taskStep_next, accept_next] at h
  exact ⟨⟨h.1, h.2.1⟩, h.2.2.2.symm⟩

theorem exec_lpush_next {v : Imm16} (h : exec (.lpush v) s = .next t) : s.Free ∧ s.lidx.toNat < 400 ∧
    t = State.report { (s.writeAT s.lidx.toNat v).taintIfBusy with
        lidx := BitVec.ofNat 9 (nextIndex s.lidx.toNat) }
      (if s.lidx.toNat = 399 then .loadComplete else .ok) := by
  simp only [exec, execLpush, taskStep_next, withEntry_next, accept] at h
  obtain ⟨h1, h2, -, hl, h⟩ := h
  refine ⟨⟨h1, h2⟩, hl, ?_⟩
  split at h <;> simp_all

theorem exec_gStart_next (h : exec .gStart s = .next t) : s.Free ∧ s.gbusy = false ∧ s.pend = true ∧
    t = { s with pend := false, gbusy := true, gidx := 0, gtype := s.wtype, taint := false } := by
  simp only [exec, execGStart, taskStep_next, Bool.and_eq_true, Bool.not_eq_true'] at h
  obtain ⟨h1, h2, ⟨h3, h4⟩, h⟩ := h
  exact ⟨⟨h1, h2⟩, h3, h4, (Host.Outcome.next.inj h).symm⟩

/-- The four generators that read no table: their type code and the value each computes. -/
def plainSample : Instr → State → Option (BitVec 3 × Nat)
  | .gOff, _ => some (0, sampleOff)
  | .gSine, s => some (1, sampleSine s.maxduty.toNat s.gidx.toNat)
  | .gSqr, s => some (2, sampleSquare s.maxduty.toNat s.duty.toNat s.gidx.toNat)
  | .gTri, s => some (3, sampleTriangle s.maxduty.toNat s.duty.toNat s.gidx.toNat)
  | .setf _, _ | .setv _, _ | .setp _, _ | .setd _, _ | .lpush _, _ => none
  | .wsin, _ | .wtri, _ | .wsqr, _ | .warb, _ | .woff, _ | .stop, _ | .regen, _ | .lbeg, _ => none
  | .gStart, _ | .gArb, _ | .gFin, _ | .tFire, _ | .tick, _ => none

theorem exec_plain_next {i : Instr} {c : BitVec 3} {v : Nat} (hc : plainSample i s = some (c, v))
    (h : exec i s = .next t) :
    s.Free ∧ s.gbusy = true ∧ s.gidx.toNat < 400 ∧ s.gtype = c ∧ t = s.putSample v := by
  cases i <;> simp only [plainSample, Option.some.injEq, Prod.mk.injEq, reduceCtorEq] at hc <;>
    (obtain ⟨rfl, rfl⟩ := hc
     simp only [exec, execGOff, execGSine, execGSqr, execGTri, taskStep_next, State.generating_iff] at h
     obtain ⟨h1, h2, ⟨h3, h4, h5⟩, h⟩ := h
     exact ⟨⟨h1, h2⟩, h3, h4, h5, (Host.Outcome.next.inj h).symm⟩)

theorem exec_gArb_next (h : exec .gArb s = .next t) : s.Free ∧ s.gbusy = true ∧ s.gidx.toNat < 400 ∧ s.gtype = 4 ∧
    t = (s.readAT s.gidx.toNat).2.putSample
          (sampleArbitrary (s.readAT s.gidx.toNat).1.toNat s.ampl.toNat) := by
  simp only [exec, execGArb, taskStep_next, State.generating_iff] at h
  obtain ⟨h1, h2, ⟨h3, h4, h5⟩, h⟩ := h
  exact ⟨⟨h1, h2⟩, h3, h4, h5, (Host.Outcome.next.inj h).symm⟩

theorem exec_gFin_next (h : exec .gFin s = .next t) : s.Free ∧ s.gbusy = true ∧ s.gidx.toNat = 400 ∧
    ((Config.sclkRepresentable (400 * s.freq.toNat) = true ∧
      t = { s with sclkFreq := BitVec.ofNat 17 (400 * s.freq.toNat), cfgerr := false, ie := true, run := true,
                   gbusy := false }) ∨
     (Config.sclkRepresentable (400 * s.freq.toNat) = false ∧
      t = { s.report .configError with cfgerr := true, gbusy := false })) := by
  simp only [exec, execGFin, taskStep_next, Bool.and_eq_true, State.done_iff] at h
  obtain ⟨h1, h2, ⟨h3, h4⟩, h⟩ := h
  refine ⟨⟨h1, h2⟩, h3, h4, ?_⟩
  split at h
  · next hr => exact .inl ⟨hr, (Host.Outcome.next.inj h).symm⟩
  · next hr => exact .inr ⟨Bool.eq_false_iff.2 hr, (Host.Outcome.next.inj h).symm⟩

theorem exec_tFire_next (h : exec .tFire s = .next t) : s.halt = false ∧ s.run = true ∧
    t = { s with ifFlag := true } := by
  simp only [exec, execTFire, hardwareStep_next] at h
  exact ⟨h.1, h.2.1, (Host.Outcome.next.inj h.2.2).symm⟩

theorem exec_tick_next (h : exec .tick s = .next t) : s.halt = false ∧ s.ifFlag = true ∧ s.ie = true ∧
    s.sidx.toNat < 400 ∧ t = (s.readWT s.sidx.toNat).2.serveTick (s.readWT s.sidx.toNat).1 := by
  simp only [exec, execTick, hardwareStep_next, withEntry_next, Bool.and_eq_true] at h
  obtain ⟨h1, ⟨h2, h3⟩, h4, h⟩ := h
  exact ⟨h1, h2, h3, h4, (Host.Outcome.next.inj h).symm⟩

/-- A step: HALT = 0, and it is an operation run on the state or on the state with the turn (and the host's word) gone,
or an invalid command word, or a turn with nothing to do. -/
theorem step_cases (h : step s = .next t) : s.halt = false ∧
    ((∃ i, exec i s = .next t) ∨ (∃ i, exec i s.endTurn = .next t) ∨
     (∃ i p, exec i { s.endTurn with port := p } = .next t) ∨
     (∃ p, t = State.report { s.endTurn with port := p } .invalidCommand) ∨
     t = s.endTurn) := by
  unfold step takeTurn at h
  split at h
  · exact absurd h (by simp)
  · next hh =>
    refine ⟨by simpa using hh, ?_⟩
    have idle_of : idle s = .next t → t = s.endTurn := fun h => (Host.Outcome.next.inj h).symm
    split at h
    · split at h
      · exact .inl ⟨_, h⟩
      · unfold hostTurn at h
        split at h
        · exact .inr (.inr (.inr (.inr (idle_of h))))
        · split at h
          · exact .inr (.inr (.inl ⟨_, _, h⟩))
          · exact .inr (.inr (.inr (.inl ⟨_, (reject_next.1 h).symm⟩)))
    · split at h
      · exact .inl ⟨_, h⟩
      · unfold engineTurn at h
        split at h
        · exact .inr (.inl ⟨_, h⟩)
        · exact absurd h (by simp)
        · exact .inr (.inr (.inr (.inr (idle_of h))))
    · unfold timerTurn at h
      split at h
      · exact .inr (.inl ⟨_, h⟩)
      · exact .inr (.inr (.inr (.inr (idle_of h))))
    · unfold streamTurn at h
      split at h
      · exact .inr (.inl ⟨_, h⟩)
      · exact .inr (.inr (.inr (.inr (idle_of h))))

/-- What every operation keeps, and what passing a turn, taking a word and reporting an invalid one keep, every step
keeps. -/
theorem step_keeps {P : State → Prop} (hexec : ∀ i s t, P s → exec i s = .next t → P t)
    (hturn : ∀ s, P s → P s.endTurn) (hport : ∀ s p, P s → P { s with port := p })
    (hinvalid : ∀ s, P s → P (s.report .invalidCommand)) (hs : P s) (h : step s = .next t) : P t := by
  obtain ⟨-, ⟨i, h⟩ | ⟨i, h⟩ | ⟨i, p, h⟩ | ⟨p, rfl⟩ | rfl⟩ := step_cases h
  · exact hexec i s t hs h
  · exact hexec i _ t (hturn s hs) h
  · exact hexec i _ t (hport _ p (hturn s hs)) h
  · exact hinvalid _ (hport _ p (hturn s hs))
  · exact hturn s hs

end Sys2Proof.Machine
end

