-- ==== Sys2Proof/Laws/PerInstr.lean ====
section
/-! SUPPORT. Statements made per instruction. The family EncodesToItsRow: the code `encode` writes for an operation
matches that operation's own row of the opcode table, and that row is in the table (R92, R98, R100). -/

namespace Sys2Proof.Laws.EncodesToItsRow

def Statement (i : Instr) : Prop := i.row ∈ opRows ∧ i.row.matchesCode (encode i) = true

/-- A word under 0xDFFF0000 keeps a base whose low sixteen bits are 0, whatever the operand. -/
theorem cmdWord_and_operandMask (b : CmdWord) (n : Imm16) (hb : b &&& 0xDFFF0000 = b) :
    cmdWord b n &&& 0xDFFF0000 = b := by
  rw [← hb, and_operandMask_eq_iff]
  simp only [hb, letterOf_cmdWord, rsvOf_cmdWord, and_self]

theorem of_operand {i : Instr} (b : CmdWord) (n : Imm16) (hrow : i.row ∈ opRows) (hk : i.row.kind = .cmd)
    (hm : i.row.mask = 0xDFFF0000) (hp : i.row.pattern = b) (he : encode i = .cmd (cmdWord b n))
    (hb : b &&& 0xDFFF0000 = b) : Statement i := by
  refine ⟨hrow, ?_⟩
  rw [he, OpRow.matchesCode, hk, hm, hp, Code.bits, cmdWord_and_operandMask b n hb]
  simp [Code.kind]

theorem setf (n : Imm16) : Statement (.setf n) :=
  of_operand 0x46000000 n (by simp [Instr.row, opRows, hostRows]) rfl rfl rfl rfl (by decide)
theorem setv (n : Imm16) : Statement (.setv n) :=
  of_operand 0x56000000 n (by simp [Instr.row, opRows, hostRows]) rfl rfl rfl rfl (by decide)
theorem setp (n : Imm16) : Statement (.setp n) :=
  of_operand 0x50000000 n (by simp [Instr.row, opRows, hostRows]) rfl rfl rfl rfl (by decide)
theorem setd (n : Imm16) : Statement (.setd n) :=
  of_operand 0x44000000 n (by simp [Instr.row, opRows, hostRows]) rfl rfl rfl rfl (by decide)
theorem lpush (v : Imm16) : Statement (.lpush v) :=
  of_operand 0x57000000 v (by simp [Instr.row, opRows, hostRows]) rfl rfl rfl rfl (by decide)
theorem wsin : Statement .wsin := by unfold Statement; decide
theorem wtri : Statement .wtri := by unfold Statement; decide
theorem wsqr : Statement .wsqr := by unfold Statement; decide
theorem warb : Statement .warb := by unfold Statement; decide
theorem woff : Statement .woff := by unfold Statement; decide
theorem stop : Statement .stop := by unfold Statement; decide
theorem regen : Statement .regen := by unfold Statement; decide
theorem lbeg : Statement .lbeg := by unfold Statement; decide
theorem gStart : Statement .gStart := by unfold Statement; decide
theorem gOff : Statement .gOff := by unfold Statement; decide
theorem gSine : Statement .gSine := by unfold Statement; decide
theorem gSqr : Statement .gSqr := by unfold Statement; decide
theorem gTri : Statement .gTri := by unfold Statement; decide
theorem gArb : Statement .gArb := by unfold Statement; decide
theorem gFin : Statement .gFin := by unfold Statement; decide
theorem tFire : Statement .tFire := by unfold Statement; decide
theorem tick : Statement .tick := by unfold Statement; decide

end Sys2Proof.Laws.EncodesToItsRow
end

