-- ==== Sys2Proof/Laws/Run.lean ====
section
/-! SUPPORT. Runs of several steps, the step of each agent's turn, and what the five generators have in common. -/

namespace Sys2Proof.Machine

variable {s t : State}

theorem run_succ_next (M : Host.Core) (k : Nat) {a b : M.State} (h : M.step a = .next b) :
    M.run (k + 1) a = M.run k b := by simp [Host.Core.run, h]

/-- A run of a + b steps is b steps from where a steps lead. -/
theorem run_add_next (M : Host.Core) {u v : M.State} (a b : Nat) (h : M.run a u = .next v) :
    M.run (a + b) u = M.run b v := by
  induction a generalizing u with
  | zero => cases h; rw [Nat.zero_add]
  | succ a ih =>
    rw [show a + 1 + b = (a + b) + 1 by omega]
    cases hs : M.step u with
    | next w => rw [run_succ_next M _ hs] at h ⊢; exact ih h
    | fault r => simp [Host.Core.run, hs] at h
    | refused r => simp [Host.Core.run, hs] at h

theorem decode_timer_sdv (s : State) :
    decode (.timer s.sdv) = if s.run then .ok .tFire else .error .clockStopped := by
  simp only [decode, State.sdv]; cases s.run <;> cases s.ifFlag <;> cases s.ie <;> rfl

theorem decode_stream_sdv (s : State) :
    decode (.stream s.sdv) = if s.ifFlag && s.ie then .ok .tick else .error .noTick := by
  simp only [decode, State.sdv]; cases s.run <;> cases s.ifFlag <;> cases s.ie <;> rfl

/-- The engine's turn with its operation known. -/
theorem step_engine {q : List Agent} {i : Instr} (h : s.halt = false) (ht : (s.ifFlag && s.ie) = false)
    (hq : s.turns = .engine :: q) (hd : decode (.edv s.edv) = .ok i) : step s = exec i { s with turns := q } := by
  simp [step, takeTurn, h, State.tickEnabled_of_live h, ht, State.turn, hq, engineTurn, hd, State.endTurn]

theorem State.readAT_state (s : State) (i : Nat) : ∃ d, (s.readAT i).2 = { s with draws := d } := by
  rcases s.readAT_cases i with ⟨v, -, h⟩ | ⟨-, h⟩ <;> rw [h]
  · exact ⟨s.draws, rfl⟩
  · exact ⟨_, rfl⟩

theorem State.readWT_state (s : State) (i : Nat) : ∃ d, (s.readWT i).2 = { s with draws := d } := by
  rcases s.readWT_cases i with ⟨v, -, h⟩ | ⟨-, h⟩ <;> rw [h]
  · exact ⟨s.draws, rfl⟩
  · exact ⟨_, rfl⟩

theorem State.putSample_state (s : State) (v : Nat) : ∃ w d, s.putSample v =
    { s with wtab := s.wtab.set s.gidx.toNat w, gidx := BitVec.ofNat 9 (s.gidx.toNat + 1), draws := d } := by
  unfold State.putSample
  split
  · exact ⟨_, _, rfl⟩
  · exact ⟨_, _, rfl⟩

/-- Whatever a generator computes, it writes one sample at GIDX and moves on. -/
theorem exec_generator_next {i : Instr} (hi : i.isGenerator = true) (h : exec i s = .next t) :
    s.Free ∧ s.gbusy = true ∧ s.gidx.toNat < 400 ∧ s.gtype.toNat ≤ 4 ∧ ∃ w d, t =
      { s with wtab := s.wtab.set s.gidx.toNat w, gidx := BitVec.ofNat 9 (s.gidx.toNat + 1), draws := d } := by
  by_cases ha : i = .gArb
  · subst ha
    obtain ⟨h1, h2, h3, h4, h5⟩ := exec_gArb_next h
    obtain ⟨d, hd⟩ := s.readAT_state s.gidx.toNat
    rw [hd] at h5
    obtain ⟨w, d', h6⟩ := State.putSample_state { s with draws := d }
      (sampleArbitrary (s.readAT s.gidx.toNat).1.toNat s.ampl.toNat)
    exact ⟨h1, h2, h3, by rw [h4]; decide, w, d', h5.trans h6⟩
  · have hp : ∃ c v, plainSample i s = some (c, v) ∧ c.toNat ≤ 4 := by
      cases i <;> first | (cases hi; done) | exact absurd rfl ha | exact ⟨_, _, rfl, by decide⟩
    obtain ⟨c, v, hc, hc4⟩ := hp
    obtain ⟨h1, h2, h3, h4, h5⟩ := exec_plain_next hc h
    obtain ⟨w, d, h6⟩ := s.putSample_state v
    exact ⟨h1, h2, h3, h4 ▸ hc4, w, d, h5.trans h6⟩

/-- TICK's next state, but for the value it read and the draw that may have taken. -/
theorem exec_tick_state (h : exec .tick s = .next t) : ∃ v b d, t =
    { s with pwmDuty := v, trig := b, sidx := BitVec.ofNat 9 (nextIndex s.sidx.toNat), ifFlag := false, draws := d,
             history := .trigger b :: .setDutyCycle v :: s.history } := by
  obtain ⟨-, -, -, -, h⟩ := exec_tick_next h
  obtain ⟨d, hd⟩ := s.readWT_state s.sidx.toNat
  rw [hd] at h
  exact ⟨_, _, d, h⟩

/-- The timer's turn with the clock running: T.FIRE. -/
theorem step_timer_of_run {q : List Agent} (h : s.halt = false) (hr : s.run = true) (hq : s.turns = .timer :: q) :
    step s = .next { s with ifFlag := true, turns := q } := by
  simp [step, takeTurn, h, State.turn, hq, timerTurn, decode_timer_sdv, hr, State.endTurn, exec, execTFire, hardwareStep]

/-- The streaming unit's turn with a tick enabled: TICK. -/
theorem step_stream_of_tick {q : List Agent} (h : s.halt = false) (ht : (s.ifFlag && s.ie) = true) (hi : s.sidx.toNat < 400)
    (hq : s.turns = .streaming :: q) : ∃ v b d, step s = .next
      { s with pwmDuty := v, trig := b, sidx := BitVec.ofNat 9 (nextIndex s.sidx.toNat), ifFlag := false, draws := d,
               history := .trigger b :: .setDutyCycle v :: s.history, turns := q } := by
  have hs : step s = exec .tick { s with turns := q } := by
    simp [step, takeTurn, h, State.turn, hq, streamTurn, decode_stream_sdv, ht, State.endTurn]
  obtain ⟨t, e⟩ : ∃ t, exec .tick { s with turns := q } = .next t := by
    simp [exec, execTick, hardwareStep, withEntry, h, ht, hi, N]
  obtain ⟨v, b, d, rfl⟩ := exec_tick_state e
  exact ⟨v, b, d, hs.trans e⟩

/-- Row 0b11****: with a pass complete the engine's operation is G.FIN. -/
theorem decode_edv_done (hb : s.gbusy = true) (hg : s.gidx.toNat = 400) : decode (.edv s.edv) = .ok .gFin := by
  have hd : s.done = true := s.done_iff.2 hg
  simp only [State.edv, hb, hd]
  exact (show ∀ (p : Bool) (x : BitVec 3), decode (.edv (bit true ++ bit true ++ bit p ++ x)) = .ok .gFin by decide) _ _

/-- G.FIN with FREQ = 0 asks for no clock the timer could give. -/
theorem exec_gFin_of_freq_zero (h : s.halt = false) (ht : (s.ifFlag && s.ie) = false) (hb : s.gbusy = true)
    (hg : s.gidx.toNat = 400) (hf : s.freq = 0) :
    exec .gFin s = .next { s.report .configError with cfgerr := true, gbusy := false } := by
  unfold exec execGFin
  rw [taskStep_of_free h ht (by rw [hb, s.done_iff.2 hg]; rfl)]
  simp [hf, clockRequest, sclkRepresentable_zero]
/-- The table law reads these five and nothing else. -/
theorem State.entryLaw_congr (h1 : t.gtype = s.gtype) (h2 : t.maxduty = s.maxduty) (h3 : t.duty = s.duty)
    (h4 : t.ampl = s.ampl) (h5 : t.atab = s.atab) (i : Nat) : t.entryLaw i = s.entryLaw i := by
  unfold State.entryLaw; rw [h1, h2, h3, h4, h5]

end Sys2Proof.Machine
end

