-- ==== Sys2Proof/Laws/Sine.lean ====
section
/-! SUPPORT. The sine table is close enough: for every 16-bit MAXDUTY and every entry, `sampleSine` is the floor that
R164 asks for over the reals.

The error of a table entry is far below 10^-14 (the angle-addition formulas, from sin and cos of 0.9 degrees). A floor
could change only if a fraction with denominator at most 65535 lay between the table's value and the true sine; the
gaps below, between neighbours in a Farey sequence, show that none lies within 10^-14 of either. -/

namespace Sys2Proof.Machine

open Real

/-! ### Sine and cosine of 0.9 degrees -/

/-- Taylor's polynomials of degree 7 and 6, with the error of eight terms of the exponential series. -/
theorem sin_cos_taylor {x : ℝ} (h0 : 0 ≤ x) (h1 : x ≤ 1) :
    |sin x - (x - x ^ 3 / 6 + x ^ 5 / 120 - x ^ 7 / 5040)| ≤ x ^ 8 / 35840 ∧
    |cos x - (1 - x ^ 2 / 2 + x ^ 4 / 24 - x ^ 6 / 720)| ≤ x ^ 8 / 35840 := by
  have hn : ‖(x : ℂ) * Complex.I‖ = x := by simp [abs_of_nonneg h0]
  have hb := Complex.exp_bound (x := (x : ℂ) * Complex.I) (by rw [hn]; exact h1) (n := 8) (by norm_num)
  have hsum : (∑ m ∈ Finset.range 8, ((x : ℂ) * Complex.I) ^ m / (m.factorial : ℂ)) =
      ((1 - x ^ 2 / 2 + x ^ 4 / 24 - x ^ 6 / 720 : ℝ) : ℂ) +
        ((x - x ^ 3 / 6 + x ^ 5 / 120 - x ^ 7 / 5040 : ℝ) : ℂ) * Complex.I := by
    have h2 : Complex.I ^ 2 = -1 := Complex.I_sq
    have h3 : Complex.I ^ 3 = -Complex.I := by rw [pow_succ, h2]; ring
    have h4 : Complex.I ^ 4 = 1 := by rw [show (4 : ℕ) = 2 * 2 from rfl, pow_mul, h2]; ring
    have h5 : Complex.I ^ 5 = Complex.I := by rw [pow_succ, h4]; ring
    have h6 : Complex.I ^ 6 = -1 := by rw [show (6 : ℕ) = 2 * 3 from rfl, pow_mul, h2]; ring
    have h7 : Complex.I ^ 7 = -Complex.I := by rw [pow_succ, h6]; ring
    simp only [Finset.sum_range_succ, Finset.sum_range_zero, mul_pow, h2, h3, h4, h5, h6, h7]
    push_cast [Nat.factorial]
    ring
  rw [hsum, hn, Complex.exp_mul_I] at hb
  have hz : Complex.cos x + Complex.sin x * Complex.I -
      (((1 - x ^ 2 / 2 + x ^ 4 / 24 - x ^ 6 / 720 : ℝ) : ℂ) +
        ((x - x ^ 3 / 6 + x ^ 5 / 120 - x ^ 7 / 5040 : ℝ) : ℂ) * Complex.I) =
      ((cos x - (1 - x ^ 2 / 2 + x ^ 4 / 24 - x ^ 6 / 720) : ℝ) : ℂ) +
        ((sin x - (x - x ^ 3 / 6 + x ^ 5 / 120 - x ^ 7 / 5040) : ℝ) : ℂ) * Complex.I := by
    push_cast; ring
  rw [hz] at hb
  have hr : x ^ 8 * (((8 : ℕ).succ : ℝ) * (((8 : ℕ).factorial : ℝ) * ((8 : ℕ) : ℝ))⁻¹) = x ^ 8 / 35840 := by
    norm_num [Nat.factorial]; ring
  have hb' := le_of_le_of_eq hb hr
  have parts : ∀ p q : ℝ, |q| ≤ ‖(p : ℂ) + (q : ℂ) * Complex.I‖ ∧ |p| ≤ ‖(p : ℂ) + (q : ℂ) * Complex.I‖ := fun p q =>
    ⟨by simpa using Complex.abs_im_le_norm ((p : ℂ) + (q : ℂ) * Complex.I),
     by simpa using Complex.abs_re_le_norm ((p : ℂ) + (q : ℂ) * Complex.I)⟩
  exact ⟨le_trans (parts _ _).1 hb', le_trans (parts _ _).2 hb'⟩

/-- The table's unit angle, 0.9 degrees. -/
noncomputable def unitAngle : ℝ := π / 200

theorem unitAngle_bounds : (0.01570796326794896619 : ℝ) < unitAngle ∧ unitAngle < 0.01570796326794896620 := by
  have h1 := pi_gt_d20; have h2 := pi_lt_d20
  unfold unitAngle; constructor <;> linarith

/-- The table's value at k, as a real. -/
noncomputable def tableSine (k : Nat) : ℝ := (quarterSine.getD k 0 : ℝ) / 1000000000000000000

theorem tableSine_one : tableSine 1 = 15707317311820676 / 1000000000000000000 := by
  have : quarterSine.getD 1 0 = 15707317311820676 := by decide
  simp only [tableSine, this]; norm_num

theorem tableSine_ninetyNine : tableSine 99 = 999876632481660599 / 1000000000000000000 := by
  have : quarterSine.getD 99 0 = 999876632481660599 := by decide
  simp only [tableSine, this]; norm_num

theorem tableSine_zero : tableSine 0 = 0 := by
  have : quarterSine.getD 0 0 = 0 := by decide
  simp only [tableSine, this]; norm_num

theorem tableSine_hundred : tableSine 100 = 1 := by
  have : quarterSine.getD 100 0 = 1000000000000000000 := by decide
  simp only [tableSine, this]; norm_num

/-- The two entries everything else is built from. -/
theorem unitAngle_table : |sin unitAngle - tableSine 1| ≤ 1 / 10 ^ 18 ∧ |cos unitAngle - tableSine 99| ≤ 1 / 10 ^ 18 := by
  obtain ⟨hl, hu⟩ := unitAngle_bounds
  obtain ⟨hs, hc⟩ := sin_cos_taylor (x := unitAngle) (by linarith) (by linarith)
  set x := unitAngle
  have p2l : (0.01570796326794896619 : ℝ) ^ 2 ≤ x ^ 2 := by gcongr
  have p2u : x ^ 2 ≤ (0.01570796326794896620 : ℝ) ^ 2 := by gcongr
  have p3l : (0.01570796326794896619 : ℝ) ^ 3 ≤ x ^ 3 := by gcongr
  have p3u : x ^ 3 ≤ (0.01570796326794896620 : ℝ) ^ 3 := by gcongr
  have p4l : (0.01570796326794896619 : ℝ) ^ 4 ≤ x ^ 4 := by gcongr
  have p4u : x ^ 4 ≤ (0.01570796326794896620 : ℝ) ^ 4 := by gcongr
  have p5l : (0.01570796326794896619 : ℝ) ^ 5 ≤ x ^ 5 := by gcongr
  have p5u : x ^ 5 ≤ (0.01570796326794896620 : ℝ) ^ 5 := by gcongr
  have p6l : (0.01570796326794896619 : ℝ) ^ 6 ≤ x ^ 6 := by gcongr
  have p6u : x ^ 6 ≤ (0.01570796326794896620 : ℝ) ^ 6 := by gcongr
  have p7l : (0.01570796326794896619 : ℝ) ^ 7 ≤ x ^ 7 := by gcongr
  have p7u : x ^ 7 ≤ (0.01570796326794896620 : ℝ) ^ 7 := by gcongr
  have p8u : x ^ 8 ≤ (0.01570796326794896620 : ℝ) ^ 8 := by gcongr
  rw [tableSine_one, tableSine_ninetyNine]
  rw [abs_le] at hs hc
  norm_num at p2l p2u p3l p3u p4l p4u p5l p5u p6l p6u p7l p7u p8u hl hu
  constructor <;> rw [abs_le] <;> constructor <;> norm_num <;> linarith

/-! ### The whole table -/

/-- Consecutive entries obey the angle-addition formulas to two units in the last place. -/
theorem quarterSine_recurrence : ∀ k, k < 100 →
    let p : Int := quarterSine.getD (k + 1) 0
    let q : Int := quarterSine.getD (99 - k) 0
    let a : Int := quarterSine.getD k 0
    let b : Int := quarterSine.getD (100 - k) 0
    let c : Int := quarterSine.getD 99 0
    let d : Int := quarterSine.getD 1 0
    (-2000000000000000000 : Int) ≤ p * 1000000000000000000 - (a * c + b * d) ∧
    p * 1000000000000000000 - (a * c + b * d) ≤ 2000000000000000000 ∧
    (-2000000000000000000 : Int) ≤ q * 1000000000000000000 - (b * c - a * d) ∧
    q * 1000000000000000000 - (b * c - a * d) ≤ 2000000000000000000 := by
  decide +kernel

theorem quarterSine_le : ∀ k, k ≤ 100 → quarterSine.getD k 0 ≤ 1000000000000000000 := by
  decide +kernel

theorem tableSine_range {k : Nat} (h : k ≤ 100) : 0 ≤ tableSine k ∧ tableSine k ≤ 1 := by
  have := quarterSine_le k h
  unfold tableSine
  refine ⟨by positivity, ?_⟩
  rw [div_le_one (by norm_num)]
  exact_mod_cast this

/-- A bound in units of 1/U, as a bound on the quotients. -/
theorem unit_scale {p a b c d U : ℝ} (hU : 0 < U) (h : |p * U - (a * c + b * d)| ≤ 2 * U) :
    |p / U - (a / U * (c / U) + b / U * (d / U))| ≤ 2 / U := by
  have e : p / U - (a / U * (c / U) + b / U * (d / U)) = (p * U - (a * c + b * d)) / (U * U) := by field_simp
  rw [e, abs_div, abs_of_pos (mul_pos hU hU), div_le_div_iff₀ (mul_pos hU hU) hU]
  nlinarith [mul_le_mul_of_nonneg_right h hU.le]

theorem unit_scale_sub {p a b c d U : ℝ} (hU : 0 < U) (h : |p * U - (a * c - b * d)| ≤ 2 * U) :
    |p / U - (a / U * (c / U) - b / U * (d / U))| ≤ 2 / U := by
  have := unit_scale (p := p) (a := a) (b := -b) (c := c) (d := d) hU (by rw [neg_mul, ← sub_eq_add_neg]; exact h)
  rwa [neg_div, neg_mul, ← sub_eq_add_neg] at this

/-- A bound on a table's integers, as a bound on reals. -/
theorem abs_le_of_int {p q : Int} (h1 : (-2000000000000000000 : Int) ≤ p * 1000000000000000000 - q) (h2 : p * 1000000000000000000 - q ≤ 2000000000000000000) :
    |(p : ℝ) * 1000000000000000000 - (q : ℝ)| ≤ 2 * 1000000000000000000 := by
  have e1 : (-2000000000000000000 : ℝ) ≤ p * 1000000000000000000 - q := by exact_mod_cast h1
  have e2 : (p : ℝ) * 1000000000000000000 - q ≤ 2000000000000000000 := by exact_mod_cast h2
  exact abs_le.2 ⟨by linarith, by linarith⟩

theorem tableSine_recurrence {k : Nat} (h : k < 100) :
    |tableSine (k + 1) - (tableSine k * tableSine 99 + tableSine (100 - k) * tableSine 1)|
      ≤ 2 / 1000000000000000000 ∧
    |tableSine (99 - k) - (tableSine (100 - k) * tableSine 99 - tableSine k * tableSine 1)|
      ≤ 2 / 1000000000000000000 := by
  obtain ⟨h1, h2, h3, h4⟩ := quarterSine_recurrence k h
  have e1 := abs_le_of_int h1 h2
  have e2 := abs_le_of_int h3 h4
  push_cast at e1 e2
  exact ⟨unit_scale (by norm_num) e1, unit_scale_sub (by norm_num) e2⟩

/-- One angle-addition step's error. -/
theorem product_error {p q a b c s x y ε : ℝ} (hp : |p - a| ≤ ε) (hq : |q - b| ≤ ε) (ha : |a| ≤ 1) (hb : |b| ≤ 1)
    (hx : |x - c| ≤ 1 / 10 ^ 18) (hy : |y - s| ≤ 1 / 10 ^ 18) (hx1 : |x| ≤ 1) (hy1 : |y| ≤ 16 / 1000) :
    |(p * x + q * y) - (a * c + b * s)| ≤ 1016 / 1000 * ε + 2 / 10 ^ 18 := by
  have e : (p * x + q * y) - (a * c + b * s) = (p - a) * x + a * (x - c) + ((q - b) * y + b * (y - s)) := by ring
  have hε : 0 ≤ ε := le_trans (abs_nonneg _) hp
  have t1 : |(p - a) * x| ≤ ε * 1 := by rw [abs_mul]; gcongr
  have t2 : |a * (x - c)| ≤ 1 * (1 / 10 ^ 18) := by rw [abs_mul]; gcongr
  have t3 : |(q - b) * y| ≤ ε * (16 / 1000) := by rw [abs_mul]; gcongr
  have t4 : |b * (y - s)| ≤ 1 * (1 / 10 ^ 18) := by rw [abs_mul]; gcongr
  rw [e]
  calc _ ≤ |(p - a) * x| + |a * (x - c)| + (|(q - b) * y| + |b * (y - s)|) :=
        le_trans (abs_add_le _ _) (add_le_add (abs_add_le _ _) (abs_add_le _ _))
    _ ≤ _ := by linarith

/-- The table's error grows by at most the factor 1.016 a step. -/
theorem table_error {k : Nat} (h : k ≤ 100) :
    |sin (k * unitAngle) - tableSine k| ≤ 5 / 10 ^ 16 * ((1016 / 1000) ^ k - 1) ∧
    |cos (k * unitAngle) - tableSine (100 - k)| ≤ 5 / 10 ^ 16 * ((1016 / 1000) ^ k - 1) := by
  induction k with
  | zero =>
    simp [tableSine_zero, tableSine_hundred]
  | succ k ih =>
    obtain ⟨ih1, ih2⟩ := ih (by omega)
    obtain ⟨r1, r2⟩ := tableSine_recurrence (k := k) (by omega)
    obtain ⟨us, uc⟩ := unitAngle_table
    obtain ⟨ul, uu⟩ := unitAngle_bounds
    have hsy : |sin unitAngle| ≤ 16 / 1000 := by
      have := abs_sin_le_abs (x := unitAngle)
      rw [abs_of_pos (show 0 < unitAngle by linarith)] at this
      linarith
    have ra := tableSine_range (k := k) (by omega)
    have rb := tableSine_range (k := 100 - k) (by omega)
    have ha : |tableSine k| ≤ 1 := abs_le.2 ⟨by linarith [ra.1], ra.2⟩
    have hb : |tableSine (100 - k)| ≤ 1 := abs_le.2 ⟨by linarith [rb.1], rb.2⟩
    have hangle : ((k + 1 : ℕ) : ℝ) * unitAngle = k * unitAngle + unitAngle := by push_cast; ring
    rw [hangle, sin_add, cos_add, show 100 - (k + 1) = 99 - k by omega]
    have s1 := product_error ih1 ih2 ha hb uc us (abs_cos_le_one _) hsy
    have s2 := product_error ih2 (q := -sin (k * unitAngle)) (b := -tableSine k)
      (by rw [← neg_sub', abs_neg]; exact ih1) hb (by rw [abs_neg]; exact ha) uc us (abs_cos_le_one _) hsy
    rw [abs_le] at s1 s2 r1 r2 ⊢
    have hpow : ((1016 : ℝ) / 1000) ^ (k + 1) = (1016 / 1000) ^ k * (1016 / 1000) := pow_succ _ _
    rw [hpow, abs_le]
    refine ⟨⟨?_, ?_⟩, ⟨?_, ?_⟩⟩ <;> norm_num at s1 s2 r1 r2 ⊢ <;> linarith [s1.1, s1.2, s2.1, s2.2, r1.1, r1.2, r2.1, r2.2]

theorem table_close {k : Nat} (h : k ≤ 100) : |sin (k * unitAngle) - tableSine k| < 1 / 10 ^ 14 := by
  have hp : ((1016 : ℝ) / 1000) ^ k ≤ (1016 / 1000) ^ 100 := pow_le_pow_right₀ (by norm_num) h
  have hp' : ((1016 : ℝ) / 1000) ^ 100 ≤ 6 := by norm_num
  refine lt_of_le_of_lt (table_error h).1 ?_
  calc (5 : ℝ) / 10 ^ 16 * ((1016 / 1000) ^ k - 1) ≤ 5 / 10 ^ 16 * (6 - 1) := by gcongr; linarith
    _ < 1 / 10 ^ 14 := by norm_num

/-! ### The gaps -/

/-- Neighbours for k = 1..20. -/
def sineGapsFrom1 : List (Nat × Nat × Nat × Nat) :=
  [(161, 10250, 963, 61309), (922, 29353, 1441, 45876), (512, 10869, 3037, 64471), (4093, 65185, 824, 13123),
   (3607, 45973, 3163, 40314), (3677, 39072, 4982, 52939), (4791, 43660, 2887, 26309), (3338, 26633, 6723, 53641),
   (3993, 28339, 9046, 64201), (9461, 60479, 9726, 62173), (10825, 62962, 7498, 43611), (3947, 21064, 10953, 58453),
   (7872, 38819, 6155, 30352), (8842, 40533, 12235, 56087), (2570, 11009, 14239, 60995), (10203, 41027, 13430, 54003),
   (10875, 41213, 13652, 51737), (6681, 23947, 16249, 58242), (13869, 47167, 13198, 44885), (17711, 57314, 5473, 17711)]

/-- Neighbours for k = 21..40. -/
def sineGapsFrom21 : List (Nat × Nat × Nat × Nat) :=
  [(19643, 60642, 4346, 13417), (20119, 59394, 5223, 15419), (10208, 28879, 18351, 51916), (3594, 9763, 22675, 61596),
   (23465, 61317, 11443, 29902), (23672, 59605, 7213, 18162), (8799, 21382, 21079, 51223), (23767, 55820, 4248, 9977),
   (24011, 54578, 24879, 56551), (21121, 46523, 23129, 50946), (6347, 13564, 28722, 61381), (30482, 63273, 1901, 3946),
   (32239, 65069, 1091, 2202), (2618, 5143, 31979, 62822), (17290, 33091, 27311, 52270), (9355, 17459, 26704, 49837),
   (26828, 48865, 10057, 18318), (21249, 37804, 26224, 46655), (30109, 52363, 16421, 28558), (35571, 60517, 4456, 7581)]

/-- Neighbours for k = 41..60. -/
def sineGapsFrom41 : List (Nat × Nat × Nat × Nat) :=
  [(31148, 51877, 13145, 21893), (36156, 58991, 25823, 42132), (38972, 62331, 19647, 31423), (17925, 28121, 29456, 46211),
   (41653, 64136, 7707, 11867), (17825, 26954, 36144, 54655), (42599, 63296, 3818, 5673), (26761, 39093, 19589, 28616),
   (37731, 54218, 39008, 56053), (13860, 19601, 33461, 47321), (35981, 50104, 11406, 15883), (22469, 30823, 28604, 39239),
   (21132, 28571, 35327, 47763), (21949, 29261, 40521, 54020), (42931, 56458, 18506, 24337), (2357, 3059, 48896, 63459),
   (25204, 32295, 48087, 61616), (42971, 54383, 9583, 12128), (21809, 27272, 32460, 40591), (23184, 28657, 51841, 64079)]

/-- Neighbours for k = 61..80. -/
def sineGapsFrom61 : List (Nat × Nat × Nat × Nat) :=
  [(53282, 65125, 2317, 2832), (44334, 53603, 16865, 20391), (42398, 50727, 24887, 29776), (11916, 14113, 44605, 52829),
   (32408, 38009, 43905, 51493), (38674, 44931, 55517, 64499), (56587, 65145, 5865, 6752), (25568, 29177, 50633, 57780),
   (42761, 48385, 41841, 47344), (19121, 21460, 39738, 44599), (9379, 10444, 53861, 59977), (35053, 38740, 30423, 33623),
   (58369, 64043, 13795, 15136), (42459, 46264, 20878, 22749), (56935, 61626, 3896, 4217), (39019, 41966, 28162, 30289),
   (47717, 51010, 56049, 59917), (44546, 47345, 57835, 61469), (55574, 58741, 13389, 14152), (54506, 57311, 14943, 15712)]

/-- Neighbours for k = 81..99. -/
def sineGapsFrom81 : List (Nat × Nat × Nat × Nat) :=
  [(48301, 50535, 30680, 32099), (55456, 57749, 16349, 17025), (26752, 27735, 42727, 44297), (59687, 61623, 4717, 4870),
   (10241, 10532, 60531, 62251), (38456, 39405, 51869, 53149), (58865, 60114, 11264, 11503), (61834, 62949, 2551, 2597),
   (33475, 33981, 51271, 52046), (39069, 39556, 61291, 62055), (44359, 44806, 34733, 35083), (1384, 1395, 64419, 64931),
   (45262, 45537, 33247, 33449), (62138, 62415, 8973, 9013), (35250, 35359, 47539, 47686), (62210, 62333, 11127, 11149),
   (62086, 62155, 4499, 4504), (34435, 34452, 44563, 44585), (56734, 56741, 64839, 64847)]

/-- For k = 1..99, two fractions a/b < sin(k * 0.9 degrees) < c/d that are neighbours among the fractions with
denominators up to 65535. -/
def sineGaps : List (Nat × Nat × Nat × Nat) :=
  sineGapsFrom1 ++ sineGapsFrom21 ++ sineGapsFrom41 ++ sineGapsFrom61 ++ sineGapsFrom81

/-- The neighbours stand more than 10^-14 away from the table's value, and no fraction with a denominator up to 65535
lies between them. -/
theorem sineGaps_ok : ∀ k, k < 99 →
    let g := sineGaps.getD k (0, 0, 0, 0)
    let v := quarterSine.getD (k + 1) 0
    0 < g.2.1 ∧ 0 < g.2.2.2 ∧ g.2.1 * g.2.2.1 = g.1 * g.2.2.2 + 1 ∧ 65535 < g.2.1 + g.2.2.2 ∧
    g.1 * 1000000000000000000 + 10000 * g.2.1 < v * g.2.1 ∧
    v * g.2.2.2 + 10000 * g.2.2.2 < g.2.2.1 * 1000000000000000000 := by
  decide +kernel

/-- No fraction p/m with m up to 65535 lies strictly between neighbours a/b and c/d. -/
theorem no_fraction_between {a b c d m : Nat} {p : Int} (hbc : b * c = a * d + 1) (hbd : 65535 < b + d)
    (hm : m ≤ 65535) (h1 : (a : Int) * m < p * b) (h2 : p * d < c * m) : False := by
  have e : (m : Int) = b * (c * m - p * d) + d * (p * b - a * m) := by
    have : (b : Int) * c = a * d + 1 := by exact_mod_cast hbc
    linear_combination -(m : Int) * this
  have k1 : (b : Int) ≤ b * (c * m - p * d) := le_mul_of_one_le_right (by positivity) (by omega)
  have k2 : (d : Int) ≤ d * (p * b - a * m) := le_mul_of_one_le_right (by positivity) (by omega)
  omega

/-- Between neighbours, the same integers lie below m times either of two numbers. -/
theorem le_mul_iff_of_gap {a b c d m : Nat} {x y : ℝ} (hb : 0 < b) (hd : 0 < d) (hbc : b * c = a * d + 1)
    (hbd : 65535 < b + d) (hm : m ≤ 65535) (hx1 : (a : ℝ) < x * b) (hx2 : x * d < c) (hy1 : (a : ℝ) < y * b)
    (hy2 : y * d < c) (p : Int) : ((p : ℝ) ≤ m * x ↔ (p : ℝ) ≤ m * y) ∧ ((p : ℝ) < m * x ↔ (p : ℝ) < m * y) := by
  rcases Nat.eq_zero_or_pos m with rfl | hpos
  · simp
  have hmr : (0 : ℝ) < m := by exact_mod_cast hpos
  have hbr : (0 : ℝ) < b := by exact_mod_cast hb
  have hdr : (0 : ℝ) < d := by exact_mod_cast hd
  have key : ∀ u v : ℝ, (a : ℝ) < u * b → v * d < c → (m : ℝ) * u ≤ p → (p : ℝ) ≤ m * v → False := by
    intro u v hu hv h1 h2
    refine no_fraction_between (p := p) hbc hbd hm ?_ ?_
    · have : (a : ℝ) * m < p * b := by nlinarith
      exact_mod_cast this
    · have : (p : ℝ) * d < c * m := by nlinarith
      exact_mod_cast this
  refine ⟨⟨fun h => ?_, fun h => ?_⟩, ⟨fun h => ?_, fun h => ?_⟩⟩ <;> by_contra hn <;> push Not at hn
  · exact key y x hy1 hx2 hn.le h
  · exact key x y hx1 hy2 hn.le h
  · exact key y x hy1 hx2 hn h.le
  · exact key x y hx1 hy2 hn h.le

/-- The floor R164 asks for is the same at the table's value as at the sine, in both half waves. -/
theorem quarter_floor {k m : Nat} (hk : k ≤ 100) (hm : m ≤ 65535) :
    ⌊((m : ℝ) * tableSine k + (m + 1)) / 2⌋ = ⌊((m : ℝ) * sin (k * unitAngle) + (m + 1)) / 2⌋ ∧
    ⌊((m : ℝ) * -tableSine k + (m + 1)) / 2⌋ = ⌊((m : ℝ) * -sin (k * unitAngle) + (m + 1)) / 2⌋ := by
  rcases Nat.eq_zero_or_pos k with rfl | hk0
  · simp [tableSine_zero]
  rcases Nat.eq_or_lt_of_le hk with rfl | hk1
  · have : ((100 : ℕ) : ℝ) * unitAngle = π / 2 := by unfold unitAngle; push_cast; ring
    rw [this, sin_pi_div_two, tableSine_hundred]; exact ⟨rfl, rfl⟩
  obtain ⟨j, rfl⟩ : ∃ j, k = j + 1 := ⟨k - 1, by omega⟩
  obtain ⟨g1, g2, g3, g4, g5, g6⟩ := sineGaps_ok j (by omega)
  generalize sineGaps.getD j (0, 0, 0, 0) = g at g1 g2 g3 g4 g5 g6
  obtain ⟨a, b, c, d⟩ := g
  simp only at g1 g2 g3 g4 g5 g6
  have hclose := abs_lt.1 (table_close hk)
  have hbr : (0 : ℝ) < b := by exact_mod_cast g1
  have hdr : (0 : ℝ) < d := by exact_mod_cast g2
  have hlo : (a : ℝ) + b / 10 ^ 14 < tableSine (j + 1) * b := by
    have : (a : ℝ) * 1000000000000000000 + 10000 * b < (quarterSine.getD (j + 1) 0 : ℝ) * b := by exact_mod_cast g5
    unfold tableSine; generalize (quarterSine.getD (j + 1) 0 : ℝ) = v at this ⊢; linarith
  have hhi : tableSine (j + 1) * d + d / 10 ^ 14 < c := by
    have : (quarterSine.getD (j + 1) 0 : ℝ) * d + 10000 * d < c * 1000000000000000000 := by exact_mod_cast g6
    unfold tableSine; generalize (quarterSine.getD (j + 1) 0 : ℝ) = v at this ⊢; linarith
  have hlo' : (a : ℝ) < sin ((j + 1 : ℕ) * unitAngle) * b := by
    have := mul_lt_mul_of_pos_right hclose.1 hbr; linarith
  have hhi' : sin ((j + 1 : ℕ) * unitAngle) * d < c := by
    have := mul_lt_mul_of_pos_right hclose.2 hdr; linarith
  generalize sin ((j + 1 : ℕ) * unitAngle) = y at hclose hlo' hhi' ⊢
  generalize tableSine (j + 1) = x at hclose hlo hhi ⊢
  have gap := fun p : Int => le_mul_iff_of_gap (x := x) (y := y) g1 g2 g3 g4 hm
    (by have : (0 : ℝ) < b / 10 ^ 14 := by positivity
        linarith)
    (by have : (0 : ℝ) < d / 10 ^ 14 := by positivity
        linarith) hlo' hhi' p
  constructor
  · refine eq_of_forall_le_iff fun z => ?_
    rw [Int.le_floor, Int.le_floor, le_div_iff₀ two_pos, le_div_iff₀ two_pos, ← sub_le_iff_le_add, ← sub_le_iff_le_add]
    have := (gap (z * 2 - (m + 1))).1
    push_cast at this; exact this
  · refine eq_of_forall_le_iff fun z => ?_
    rw [Int.le_floor, Int.le_floor, le_div_iff₀ two_pos, le_div_iff₀ two_pos]
    have := not_congr (gap (m + 1 - z * 2)).2
    push_cast at this
    rw [not_lt, not_lt] at this
    constructor
    · intro h; linarith [this.1 (by linarith)]
    · intro h; linarith [this.2 (by linarith)]

/-! ### The sample -/

theorem fullSine_range : ∀ k, k ≤ 400 → -(sineUnit : Int) ≤ fullSine k ∧ fullSine k ≤ sineUnit := by
  decide +kernel

/-- Integer division is the floor of the real quotient. -/
theorem sampleSine_floor {m i : Nat} (hi : i < 400) :
    (sampleSine m i : ℤ) = ⌊((m : ℝ) * ((fullSine (i + 1) : ℝ) / 1000000000000000000) + (m + 1)) / 2⌋ := by
  have hr := fullSine_range (i + 1) (by omega)
  have hU : (sineUnit : Int) = 1000000000000000000 := rfl
  have hnn : 0 ≤ (m : Int) * fullSine (i + 1) + (m + 1) * sineUnit := by
    have : (m : Int) * -(sineUnit : Int) ≤ m * fullSine (i + 1) := mul_le_mul_of_nonneg_left hr.1 (by positivity)
    rw [hU] at this ⊢; linarith
  unfold sampleSine
  rw [Int.toNat_of_nonneg (Int.ediv_nonneg hnn (by rw [hU]; norm_num))]
  refine eq_of_forall_le_iff fun z => ?_
  rw [Int.le_ediv_iff_mul_le (by rw [hU]; norm_num), Int.le_floor, le_div_iff₀ two_pos, hU]
  constructor
  · intro h
    have : ((z * (2 * 1000000000000000000) : ℤ) : ℝ) ≤ ((m * fullSine (i + 1) + (m + 1) * 1000000000000000000 : ℤ) : ℝ) :=
      Int.cast_le.2 h
    push_cast at this; linarith
  · intro h
    have : ((z * (2 * 1000000000000000000) : ℤ) : ℝ) ≤ ((m * fullSine (i + 1) + (m + 1) * 1000000000000000000 : ℤ) : ℝ) := by
      push_cast; linarith
    exact_mod_cast this

/-- R164, for every 16-bit MAXDUTY and every entry. -/
theorem sampleSine_eq_real {m i : Nat} (hm : m ≤ 65535) (hi : i < 400) :
    (sampleSine m i : ℤ) = ⌊(m : ℝ) / 2 * sin (2 * π * (i + 1) / 400) + (m : ℝ) / 2 + 1 / 2⌋ := by
  rw [sampleSine_floor hi]
  have hshape : (m : ℝ) / 2 * sin (2 * π * (i + 1) / 400) + (m : ℝ) / 2 + 1 / 2 =
      ((m : ℝ) * sin (2 * π * (i + 1) / 400) + (m + 1)) / 2 := by ring
  rw [hshape]
  have hangle : ∀ j : ℕ, 2 * π * ((i : ℝ) + 1) / 400 = (j : ℝ) * unitAngle ↔ (i : ℝ) + 1 = j := by
    intro j
    have := pi_pos
    unfold unitAngle
    constructor
    · intro h; field_simp at h; linarith
    · intro h; rw [h]; ring
  unfold fullSine
  split
  · next h =>
    rw [(hangle (i + 1)).2 (by push_cast; ring)]
    exact (quarter_floor h hm).1
  · split
    · next h =>
      have : sin (2 * π * ((i : ℝ) + 1) / 400) = sin ((200 - (i + 1) : ℕ) * unitAngle) := by
        rw [← sin_pi_sub]; congr 1
        rw [Nat.cast_sub h]; unfold unitAngle; push_cast; ring
      rw [this]
      exact (quarter_floor (by omega) hm).1
    · split
      · next h0 h =>
        have : sin (2 * π * ((i : ℝ) + 1) / 400) = -sin ((i + 1 - 200 : ℕ) * unitAngle) := by
          rw [← sin_add_pi]; congr 1
          rw [Nat.cast_sub (by omega)]; unfold unitAngle; push_cast; ring
        rw [this]
        have := (quarter_floor (k := i + 1 - 200) (by omega) hm).2
        rw [← this]; unfold tableSine; push_cast; ring_nf
      · next h0 h =>
        have : sin (2 * π * ((i : ℝ) + 1) / 400) = -sin ((400 - (i + 1) : ℕ) * unitAngle) := by
          rw [← sin_neg, ← sin_sub_two_pi]; congr 1
          rw [Nat.cast_sub (by omega)]; unfold unitAngle; push_cast; ring
        rw [this]
        have := (quarter_floor (k := 400 - (i + 1)) (by omega) hm).2
        rw [← this]; unfold tableSine; push_cast; ring_nf

/-- R164: the sine table stays in 0..MAXDUTY. -/
theorem sampleSine_le {m i : Nat} (hi : i < 400) : sampleSine m i ≤ m := by
  have hr := fullSine_range (i + 1) (by omega)
  have hU : (sineUnit : Int) = 1000000000000000000 := rfl
  unfold sampleSine
  rw [Int.toNat_le]
  refine Int.le_of_lt_add_one (Int.ediv_lt_of_lt_mul (by rw [hU]; norm_num) ?_)
  have : (m : Int) * fullSine (i + 1) ≤ m * sineUnit := mul_le_mul_of_nonneg_left hr.2 (by positivity)
  rw [hU] at this ⊢; linarith

end Sys2Proof.Machine
end

