-- ==== Sys2Proof/Tests/Slice0.lean ====
section
/-! SUPPORT. The model's own tests. Expected values are the vectors of spec/95_test_vectors.md, named beside each test,
or written out from the encodings of spec/30_encoding.md. The second half shows, for each obligation, states that meet
its hypotheses. -/

namespace Sys2Proof.Tests

open Sys2Proof.Machine

/-! ## Ill-formed codes -/

theorem test_wellFormed_setf : (Code.cmd 0x46000096).wellFormed = true := by decide
/-- V-DEC-3. -/
theorem test_illFormed_reservedBits : (Code.cmd 0x46010096).wellFormed = false := by decide
/-- V-DEC-6. -/
theorem test_illFormed_strayOperand : (Code.cmd 0x53000001).wellFormed = false := by decide
/-- V-DEC-4. -/
theorem test_illFormed_letterR : (Code.cmd 0x52000000).wellFormed = false := by decide
/-- V-DEC-8. -/
theorem test_illFormed_letterZ : (Code.cmd 0x5A000000).wellFormed = false := by decide
/-- V-EDV-1. -/
theorem test_illFormed_engineIdle : (Code.edv 0b000000).wellFormed = false := by decide
/-- V-EDV-12. -/
theorem test_illFormed_reservedType : (Code.edv 0b100101).wellFormed = false := by decide
/-- V-SDV-1. -/
theorem test_illFormed_clockStopped : (Code.timer 0b000).wellFormed = false := by decide
/-- V-SDV-2, read by the streaming unit. -/
theorem test_illFormed_noTick : (Code.stream 0b101).wellFormed = false := by decide

/-! ## Words written out from the encodings (R91, R92, R98, R100) -/

/-- OPC = F, S, X, W with RSV = 0 and IMM16 as the rule says; V-DEC-1, 2, 11, 13, 21, 22. -/
theorem test_decode_words :
    decode (.cmd 0b01000110_00000000_0000000010010110) = .ok (.setf 150) ∧
    decode (.cmd 0b01100110_00000000_0000000010010110) = .ok (.setf 150) ∧
    decode (.cmd 0b01010110_00000000_0000000000100001) = .ok (.setv 33) ∧
    decode (.cmd 0b01010000_00000000_0000000101101000) = .ok (.setp 360) ∧
    decode (.cmd 0b01000100_00000000_0000000001100100) = .ok (.setd 100) ∧
    decode (.cmd 0b01110111_00000000_1111111111111111) = .ok (.lpush 65535) ∧
    decode (.cmd 0xC6000005) = .error .strayOperand ∧
    decode (.cmd 0x26000005) = .error .strayOperand := by decide
/-- V-DEC-5, 7, 14 to 19. -/
theorem test_decode_plain_words :
    decode (.cmd 0x53000000) = .ok .wsin ∧ decode (.cmd 0x54000000) = .ok .wtri ∧
    decode (.cmd 0x71000000) = .ok .wsqr ∧ decode (.cmd 0x41000000) = .ok .warb ∧
    decode (.cmd 0x4F000000) = .ok .woff ∧ decode (.cmd 0x58000000) = .ok .stop ∧
    decode (.cmd 0x47000000) = .ok .regen ∧ decode (.cmd 0x4C000000) = .ok .lbeg := by decide
/-- V-EDV-2 to V-EDV-12. -/
theorem test_decode_edv :
    decode (.edv 0b001000) = .ok .gStart ∧ decode (.edv 0b011001) = .ok .gStart ∧
    decode (.edv 0b010001) = .error .engineWaits ∧ decode (.edv 0b100000) = .ok .gOff ∧
    decode (.edv 0b100001) = .ok .gSine ∧ decode (.edv 0b101010) = .ok .gSqr ∧
    decode (.edv 0b100011) = .ok .gTri ∧ decode (.edv 0b100100) = .ok .gArb ∧
    decode (.edv 0b110100) = .ok .gFin ∧ decode (.edv 0b111000) = .ok .gFin ∧
    decode (.edv 0b100101) = .error .reservedType := by decide
/-- V-SDV-1 to V-SDV-4. -/
theorem test_decode_sdv :
    decode (.timer 0b101) = .ok .tFire ∧ decode (.timer 0b000) = .error .clockStopped ∧
    decode (.stream 0b111) = .ok .tick ∧ decode (.stream 0b011) = .ok .tick ∧
    decode (.stream 0b101) = .error .noTick := by decide

/-! ## One operation on a small state -/

/-- A live block at rest: reset with HALT = 0 and nothing reported yet. -/
def base : State := { State.reset with halt := false, history := [] }
/-- Section 2.2's start state. -/
def tuned : State := { base with freq := 100, ampl := 33, maxduty := 1000, wtype := 1 }
/-- A pass of type c at entry g, with MAXDUTY = 1000. -/
def inPass (c : BitVec 3) (g : BitVec 9) (duty : BitVec 7) : State :=
  { base with gbusy := true, gtype := c, gidx := g, duty := duty, maxduty := 1000 }
/-- Streaming from entry i with the window at p. -/
def ticking (i p : BitVec 9) : State :=
  { base with run := true, ie := true, ifFlag := true, sidx := i, phaseidx := p }
/-- A table with every entry written, each with 7. -/
def full : Memory := (List.range 400).map fun i => (i, 7)

/-- A view of the next state, if there is one. -/
def seen {α : Type} (r : Result) (f : State → α) : Option α :=
  match r with
  | .next t => some (f t)
  | .fault _ => none
  | .refused _ => none

/-- V-SETF-1, V-SETF-4. -/
theorem test_setf : seen (exec (.setf 150) tuned) (fun t => (t.freq, t.wtype, t.history)) =
      some (150, 1, [.report .ok]) ∧
    seen (exec (.setf 999) tuned) (fun t => (t.freq, t.history)) = some (100, [.report .invalidFrequency]) := by
  decide +kernel
/-- V-SETF-6. -/
theorem test_setf_zero : seen (exec (.setf 0) { tuned with gbusy := true }) (fun t => (t.freq, t.wtype, t.taint)) =
    some (0, 0, true) := by decide +kernel
/-- V-SETV-8, V-SETV-9. -/
theorem test_setv : seen (exec (.setv 0) tuned) (fun t => (t.ampl, t.wtype)) = some (0, 0) ∧
    seen (exec (.setv 34) tuned) (fun t => (t.ampl, t.maxduty, t.history)) =
      some (33, 1000, [.report .invalidAmplitude]) := by decide +kernel
/-- V-SETP-8, V-SETP-9, V-SETP-10. -/
theorem test_setp : seen (exec (.setp 359) tuned) (fun t => (t.phase, t.phaseidx)) = some (359, 398) ∧
    seen (exec (.setp 360) { tuned with phase := 5 }) (fun t => (t.phase, t.phaseidx)) = some (0, 0) ∧
    seen (exec (.setp 361) tuned) (fun t => t.history) = some [.report .invalidPhase] := by decide +kernel
/-- V-SETD-1, V-SETD-3, V-SETD-4. -/
theorem test_setd : seen (exec (.setd 25) tuned) (fun t => (t.duty, t.taint)) = some (25, false) ∧
    seen (exec (.setd 101) tuned) (fun t => (t.duty, t.history)) = some (0, [.report .invalidDuty]) ∧
    seen (exec (.setd 50) { tuned with gbusy := true }) (fun t => (t.duty, t.taint)) = some (50, true) := by
  decide +kernel
/-- V-W-1 to V-W-7. -/
theorem test_waves : seen (exec .wsin base) (fun t => t.wtype) = some 1 ∧
    seen (exec .wtri base) (fun t => t.wtype) = some 3 ∧ seen (exec .warb base) (fun t => t.wtype) = some 4 ∧
    seen (exec .wsqr { tuned with gbusy := true, gtype := 1 }) (fun t => (t.wtype, t.gtype, t.taint, t.freq)) =
      some (2, 1, true, 100) ∧
    seen (exec .woff { tuned with run := true }) (fun t => (t.wtype, t.run)) = some (0, true) := by decide +kernel
/-- V-STOP-1. -/
theorem test_stop : seen (exec .stop { base with run := true, ie := true, sidx := 137 })
    (fun t => (t.run, t.ie, t.sidx)) = some (false, true, 137) := by decide +kernel
/-- V-REGEN-3. -/
theorem test_regen : seen (exec .regen { base with gbusy := true, gidx := 11 })
    (fun t => (t.pend, t.gbusy, t.gidx, t.taint)) = some (true, true, 11, false) := by decide +kernel
/-- V-LBEG-1. -/
theorem test_lbeg : seen (exec .lbeg { base with lidx := 57, atab := [(3, 9)] }) (fun t => (t.lidx, t.atab)) =
    some (0, [(3, 9)]) := by decide +kernel
/-- V-LPUSH-1, V-LPUSH-3. -/
theorem test_lpush : seen (exec (.lpush 700) base) (fun t => (t.atab, t.lidx, t.history)) =
      some ([(0, 700)], 1, [.report .ok]) ∧
    seen (exec (.lpush 5) { base with lidx := 399 }) (fun t => (t.atab, t.lidx, t.history)) =
      some ([(399, 5)], 0, [.report .loadComplete]) := by decide +kernel
/-- V-LPUSH-5. -/
theorem test_lpush_in_pass : seen (exec (.lpush 65535) { base with lidx := 3, gbusy := true })
    (fun t => (t.atab, t.lidx, t.taint)) = some ([(3, 65535)], 4, true) := by decide +kernel
/-- V-GST-1. -/
theorem test_gStart : seen (exec .gStart { base with pend := true, wtype := 2, gidx := 400, taint := true })
    (fun t => (t.pend, t.gbusy, t.gidx, t.gtype, t.taint)) = some (false, true, 0, 2, false) := by decide +kernel
/-- V-OFF-1. -/
theorem test_gOff : seen (exec .gOff (inPass 0 399 25)) (fun t => (t.wtab, t.gidx)) = some ([(399, 0)], 400) := by
  decide +kernel
/-- V-SINE-1. -/
theorem test_gSine : seen (exec .gSine (inPass 1 0 25)) (fun t => (t.wtab, t.gidx)) = some ([(0, 508)], 1) ∧
    seen (exec .gSine (inPass 1 249 75)) (fun t => t.wtab) = some [(249, 146)] := by decide +kernel
/-- V-SQR-1. -/
theorem test_gSqr : seen (exec .gSqr (inPass 2 99 25)) (fun t => t.wtab) = some [(99, 1000)] ∧
    seen (exec .gSqr (inPass 2 100 25)) (fun t => t.wtab) = some [(100, 0)] := by decide +kernel
/-- V-TRI-2, V-TRI-4. -/
theorem test_gTri : seen (exec .gTri (inPass 3 101 25)) (fun t => t.wtab) = some [(101, 997)] ∧
    seen (exec .gTri (inPass 3 399 100)) (fun t => t.wtab) = some [(399, 997)] := by decide +kernel
/-- V-ARB-1, V-ARB-3. -/
theorem test_gArb : seen (exec .gArb { inPass 4 142 0 with ampl := 11, atab := [(142, 994)] }) (fun t => t.wtab) =
      some [(142, 331)] ∧
    seen (exec .gArb { inPass 4 5 0 with ampl := 32, atab := [(5, 65535)] }) (fun t => t.wtab) =
      some [(5, 63549)] := by decide +kernel
/-- V-ARB-5: an entry nothing has written is a draw. -/
theorem test_gArb_draw : seen (exec .gArb (inPass 4 5 0)) (fun t => t.draws) = some 1 := by decide +kernel
/-- V-GFIN-2. -/
theorem test_gFin : seen (exec .gFin (inPass 0 400 0)) (fun t => (t.cfgerr, t.gbusy, t.sclkFreq, t.ie, t.history)) =
    some (true, false, 0, false, [.report .configError]) := by
  unfold exec execGFin; rw [taskStep_of_free rfl rfl (by decide)]; dsimp only
  rw [if_neg (by simp [clockRequest, inPass, base, State.reset, sclkRepresentable_zero])]; rfl
/-- V-FIRE-1, V-FIRE-3. -/
theorem test_tFire : seen (exec .tFire { base with run := true }) (fun t => t.ifFlag) = some true ∧
    exec .tFire base = .refused .guardFalse := ⟨by decide +kernel, rfl⟩
/-- V-TICK-1, V-TICK-8. -/
theorem test_tick : seen (exec .tick { ticking 100 100 with wtab := [(100, 1000)] })
      (fun t => (t.pwmDuty, t.trig, t.sidx, t.ifFlag)) = some (1000, true, 101, false) ∧
    seen (exec .tick (ticking 11 390)) (fun t => (t.trig, t.sidx)) = some (false, 12) := by decide +kernel
/-- V-TICK-5, V-TICK-11. -/
theorem test_tick_wraps : seen (exec .tick (ticking 399 390)) (fun t => (t.trig, t.sidx, t.draws)) =
    some (true, 0, 1) := by decide +kernel
/-- V-PRI-1. -/
theorem test_priority : exec .gStart { ticking 0 0 with pend := true } = .refused .heldByTick ∧
    exec .regen (ticking 0 0) = .refused .heldByTick := ⟨rfl, rfl⟩
/-- V-RST-1, and V-RST-2 by the same view. -/
theorem test_status : base.status = 0x000 ∧ { base with halt := true }.status = 0x100 ∧
    { base with run := true, ie := true }.status = 0x003 ∧ { base with cfgerr := true }.status = 0x010 := by decide

/-! ## Sine tables (V-SINE-1 to V-SINE-5 and section 3) -/

/-- V-SINE-1's entries. -/
theorem test_sine_1000 : [0, 1, 2, 9, 49, 98, 99, 100, 149, 198, 199, 200, 249, 298, 299, 300, 349, 398, 399].map
      (sampleSine 1000) =
    [508, 516, 524, 578, 854, 1000, 1000, 1000, 854, 508, 500, 492, 146, 0, 0, 0, 146, 492, 500] := by decide
/-- Section 3, rows 0 and 10. -/
theorem test_sine_rows : (List.range 20).map (sampleSine 1000) =
    [508, 516, 524, 531, 539, 547, 555, 563, 570, 578, 586, 594, 601, 609, 617, 624, 632, 639, 647, 655] := by decide
/-- Section 3: the sum of the 400 entries. -/
theorem test_sine_sum : ((List.range 400).map (sampleSine 1000)).sum = 200000 := by decide +kernel
/-- V-SINE-2. -/
theorem test_sine_30 : [0, 49, 99, 199, 299, 399].map (sampleSine 30) = [15, 26, 30, 15, 0, 15] := by decide
/-- V-SINE-4: the two exact ties go up. -/
theorem test_sine_333 : [0, 99, 199, 299, 399].map (sampleSine 333) = [169, 333, 167, 0, 167] := by decide
/-- V-SINE-3. -/
theorem test_sine_zero : (List.range 400).all (fun i => sampleSine 0 i == 0) = true := by decide +kernel
/-- V-TRI-1, V-TRI-5, V-TRI-7. -/
theorem test_triangle : [0, 1, 100, 199, 200, 201, 399].map (sampleTriangle 1000 50) =
      [0, 5, 500, 995, 1000, 995, 5] ∧
    [1, 60, 119, 120, 121, 260, 399].map (sampleTriangle 333 30) = [2, 166, 330, 333, 332, 167, 2] ∧
    [395, 396, 397, 398, 399].map (sampleTriangle 1000 99) = [997, 1000, 750, 500, 250] := by decide

/-! ## Steps, and a word placed where its agent reads it -/

/-- A step takes the host's oldest word; the second state's is V-DEC-8's letter Z. -/
theorem test_step_host :
    seen (step { base with turns := [.host], port := [0x46000096, 0x47000000] }) (fun t => (t.freq, t.port, t.turns)) =
      some (150, [0x47000000], []) ∧
    seen (step { base with turns := [.host], port := [0x5A000000] }) (fun t => (t.port, t.history)) =
      some ([], [.report .invalidCommand]) := by decide +kernel
/-- V-EDV-12. -/
theorem test_step_reserved : step { inPass 5 3 0 with turns := [.engine] } = .refused .reservedWaveType := rfl
/-- V-RST-2. -/
theorem test_step_halted : step { base with halt := true } = .fault .halted := rfl
theorem test_placed_host : seen (step (State.reset.withFetchWord 32 0x46000096)) (fun t => t.freq) = some 150 := by
  decide +kernel
theorem test_placed_engine : seen (step (State.reset.withFetchWord 8 0x08)) (fun t => (t.gbusy, t.pend)) =
    some (true, false) := by decide +kernel
theorem test_placed_stream : seen (step (State.reset.withFetchWord 8 0x3)) (fun t => t.sidx) = some 1 ∧
    seen (step (State.reset.withFetchWord 8 0x4)) (fun t => t.ifFlag) = some true := by decide +kernel

/-! ## Witnesses: states and operands that meet each obligation's hypotheses -/

theorem wit_OpcodeRowsAreDisjoint : (⟨"TICK", .stream, 0x3, 0x3⟩ : OpRow) ∈ opRows ∧
    (⟨"TICK", .stream, 0x3, 0x3⟩ : OpRow).matchesCode (.stream 7) = true := by decide
theorem wit_DecodeIsTheOpcodeTable : decode (.cmd 0x4600FFFF) = .ok (.setf 65535) ∧
    (Instr.setf 65535).operand = some 65535 := by decide

/-- The host's turn, with one word ahead. -/
def hostOn (w : CmdWord) : State := { base with turns := [.host], port := [w] }

theorem wit_UnmatchedWordIsInvalidCommand : (hostOn 0x53000001).halt = false ∧
    ((hostOn 0x53000001).ifFlag && (hostOn 0x53000001).ie) = false ∧ (hostOn 0x53000001).turn = .host ∧
    (hostOn 0x53000001).port = 0x53000001 :: [] ∧ (∀ r ∈ hostRows, (0x53000001 &&& r.mask) ≠ r.pattern) ∧
    (∀ r ∈ hostRows, (0x46010096 &&& r.mask) ≠ r.pattern) := by decide
theorem wit_StepRunsTheHostCommand : (hostOn 0x4600012C).halt = false ∧
    ((hostOn 0x4600012C).ifFlag && (hostOn 0x4600012C).ie) = false ∧ (hostOn 0x4600012C).turn = .host ∧
    (hostOn 0x4600012C).port = 0x4600012C :: [] ∧ decode (.cmd 0x4600012C) = .ok (.setf 300) := by decide
theorem wit_StepRunsTheEngineOperation :
    let s := { inPass 3 399 25 with turns := [.engine] }
    s.halt = false ∧ (s.ifFlag && s.ie) = false ∧ s.turn = .engine ∧ decode (.edv s.edv) = .ok .gTri := by decide
theorem wit_StepRunsTheStreamOperation :
    let s := { ticking 0 0 with turns := [.timer] }
    let u := { ticking 0 0 with turns := [.streaming] }
    (s.halt = false ∧ s.turn = .timer ∧ s.run = true) ∧
    (u.halt = false ∧ u.turn = .streaming ∧ u.ifFlag = true ∧ u.ie = true) := by decide
theorem wit_EnabledTickHasPriority :
    let s := { ticking 399 0 with turns := [.host] }
    let u := { ticking 399 0 with turns := [.engine] }
    (s.halt = false ∧ s.ifFlag = true ∧ s.ie = true ∧ s.turn = .host ∧ s.sidx.toNat < 400 ∧ s.run = true) ∧
    (u.halt = false ∧ u.ifFlag = true ∧ u.ie = true ∧ u.turn = .engine) ∧
    Instr.regen ≠ .tFire ∧ Instr.regen ≠ .tick := by decide
theorem wit_WaitingAgentChangesNothing :
    let s := fun a => { base with turns := [a] }
    (s .host).halt = false ∧ (s .host).turn = .host ∧ ((s .host).ifFlag && (s .host).ie) = false ∧
    (s .host).port = [] ∧ (s .engine).turn = .engine ∧ (s .engine).gbusy = false ∧ (s .engine).pend = false ∧
    (s .timer).turn = .timer ∧ (s .timer).run = false ∧ (s .streaming).turn = .streaming ∧
    ((s .streaming).ifFlag && (s .streaming).ie) = false := by decide
theorem wit_HaltIsFixedAndFatal : (∃ t, step (hostOn 0x47000000) = .next t) ∧ (∃ t, exec .regen base = .next t) ∧
    { base with halt := true }.halt = true := ⟨⟨_, rfl⟩, ⟨_, rfl⟩, rfl⟩
theorem wit_ReservedTypeIsRefused :
    let s := fun c g => { inPass c g 0 with turns := [.engine] }
    (s 5 0).halt = false ∧ ((s 5 0).ifFlag && (s 5 0).ie) = false ∧ (s 5 0).turn = .engine ∧ (s 5 0).gbusy = true ∧
    (s 5 0).gidx.toNat ≠ 400 ∧ 5 ≤ (s 5 0).gtype.toNat ∧ (s 7 399).gidx.toNat ≠ 400 ∧ 5 ≤ (s 7 399).gtype.toNat := by
  decide

/-- A live block with no tick enabled: all that WaveCommandsSelectTheType, StopClearsRunOnly, RegenSetsPendOnly and
LbegResetsTheLoadIndex ask. -/
theorem wit_plain_commands : base.halt = false ∧ (base.ifFlag && base.ie) = false := by decide

theorem wit_SetfStoresTheFrequency :
    base.halt = false ∧ (base.ifFlag && base.ie) = false ∧ 300 < (301 : Imm16).toNat ∧ (0 : Imm16).toNat = 0 ∧
    (0 < (1 : Imm16).toNat ∧ (1 : Imm16).toNat ≤ 300) ∧ (0 < (300 : Imm16).toNat ∧ (300 : Imm16).toNat ≤ 300) := by
  decide
theorem wit_SetvRescalesTheDutyCeiling :
    base.halt = false ∧ (base.ifFlag && base.ie) = false ∧ 33 < (34 : Imm16).toNat ∧ (0 : Imm16).toNat = 0 ∧
    (0 < (1 : Imm16).toNat ∧ (1 : Imm16).toNat ≤ 33) ∧ (0 < (33 : Imm16).toNat ∧ (33 : Imm16).toNat ≤ 33) := by decide
theorem wit_SetpMovesTheTriggerWindow :
    base.halt = false ∧ (base.ifFlag && base.ie) = false ∧ 360 < (361 : Imm16).toNat ∧ (360 : Imm16).toNat = 360 ∧
    (359 : Imm16).toNat < 360 ∧ (0 : Imm16).toNat < 360 := by decide
theorem wit_SetdStoresTheDuty :
    base.halt = false ∧ (base.ifFlag && base.ie) = false ∧ 100 < (101 : Imm16).toNat ∧ (100 : Imm16).toNat ≤ 100 ∧ (0 : Imm16).toNat ≤ 100 := by
  decide
theorem wit_LpushCommitsOneSample :
    let s := fun l => { base with lidx := l }
    (s 399).halt = false ∧ ((s 399).ifFlag && (s 399).ie) = false ∧ (s 399).lidx.toNat = 399 ∧
    (s 398).lidx.toNat < 399 ∧ (s 0).lidx.toNat < 399 := by decide
theorem wit_GStartLatchesTheWaveType :
    let s := { base with pend := true }
    s.halt = false ∧ (s.ifFlag && s.ie) = false ∧ s.gbusy = false ∧ s.pend = true := by decide

/-- GOffStoresZero, GSineStoresTheRoundedRealSine, GSqrStoresTheSquare, GTriStoresTheTriangle and
GArbRescalesTheLoadedEntry: their hypotheses at the first and the last entry, clean and tainted. -/
theorem wit_generators : ∀ c ∈ [(0 : BitVec 3), 1, 2, 3, 4], ∀ g ∈ [(0 : BitVec 9), 399], ∀ b ∈ [true, false],
    let s := { inPass c g 25 with taint := b }
    s.halt = false ∧ (s.ifFlag && s.ie) = false ∧ s.gbusy = true ∧ s.gidx.toNat ≤ 399 ∧ s.gtype = c ∧ s.taint = b ∧
    s.ampl.toNat ≤ 33 := by decide
/-- Each side of the duty index, at its edge. -/
theorem wit_GTriStoresTheTriangle : (inPass 3 99 25).gidx.toNat < (inPass 3 99 25).duty.toNat * 400 / 100 ∧
    (inPass 3 100 25).duty.toNat * 400 / 100 ≤ (inPass 3 100 25).gidx.toNat := by decide
theorem wit_GArbRescalesTheLoadedEntry :
    { inPass 4 0 0 with atab := [(0, 33)] }.atab.get? (inPass 4 0 0).gidx.toNat = some 33 ∧
    (inPass 4 0 0).atab.get? (inPass 4 0 0).gidx.toNat = none := by decide
theorem wit_GFinConfiguresAndStarts :
    let s := { inPass 1 400 0 with freq := 300 }
    s.halt = false ∧ (s.ifFlag && s.ie) = false ∧ s.gbusy = true ∧ s.gidx.toNat = 400 ∧ s.freq.toNat ≤ 300 := by decide
theorem wit_EngineGuardIsItsPattern : Instr.gFin.isEngine = true ∧ base.halt = false ∧
    (base.ifFlag && base.ie) = false ∧ (inPass 0 400 0).gidx.toNat ≤ 400 := by decide
theorem wit_TFireSetsThePendingTick : base.halt = false ∧ base.run = false ∧ (ticking 0 0).halt = false ∧
    (ticking 0 0).run = true := by decide
theorem wit_TickOutputsOneSample :
    let s := { ticking 399 399 with wtab := [(399, 7)] }
    s.halt = false ∧ s.ifFlag = true ∧ s.ie = true ∧ s.sidx.toNat < 400 ∧ s.phaseidx.toNat < 400 ∧
    s.wtab.get? s.sidx.toNat = some 7 ∧ (ticking 399 0).wtab.get? (ticking 399 0).sidx.toNat = none := by decide
theorem wit_TickNeedsAPendingEnabledTick : base.halt = false ∧ (base.ifFlag && base.ie) = false := by decide
theorem wit_HostCommandReportsOnce : (Instr.setf 301).isHost = true ∧ { base with lidx := 399 }.lidx.toNat < 400 ∧
    (∃ t, exec (.setf 301) { base with lidx := 399 } = .next t ∧ t.history = [.report .invalidFrequency]) ∧
    ReportCode.invalidFrequency ≠ .ok ∧ ReportCode.invalidFrequency ≠ .loadComplete :=
  ⟨rfl, by decide, ⟨_, rfl, rfl⟩, by decide, by decide⟩
theorem wit_TaintFollowsItsRule : (∃ t, exec .gStart { base with pend := true, taint := true } = .next t) ∧
    ∃ t, exec .wsin { base with gbusy := true } = .next t := ⟨⟨_, rfl⟩, ⟨_, rfl⟩⟩
theorem wit_TablesHaveOneWriterEach : (∃ t, exec .gOff (inPass 0 399 0) = .next t) ∧
    (∃ t, exec (.lpush 1) base = .next t) ∧ Instr.regen.isGenerator = false ∧ 398 ≠ (inPass 0 399 0).gidx.toNat ∧
    1 ≠ base.lidx.toNat := ⟨⟨_, rfl⟩, ⟨_, rfl⟩, by decide, by decide, by decide⟩
/-- No clause but IF's and PEND's shuts both T.FIRE and REGEN out; each meets the other's. -/
theorem wit_EveryRegisterHasItsWriters : (∃ t, exec .tFire (ticking 0 0) = .next t) ∧
    (∃ t, exec .regen base = .next t) ∧ Instr.tFire ∉ [Instr.wsin, .wtri, .wsqr, .warb, .woff] ∧
    Instr.tFire.isGenerator = false ∧ Instr.tFire.breaksPass = false := ⟨⟨_, rfl⟩, ⟨_, rfl⟩, by decide, by decide, rfl⟩
theorem wit_StoppedClockStaysQuiet : base.run = false ∧ base.ifFlag = false ∧ Instr.regen ≠ .gFin ∧
    ∃ t, exec .regen base = .next t := ⟨rfl, rfl, by decide, ⟨_, rfl⟩⟩
theorem wit_StopFindsNoPendingTick : ∃ t, exec .stop { base with run := true, ie := true } = .next t := ⟨_, rfl⟩
theorem wit_TFireAndTickInEitherOrder : (ticking 399 0).halt = false ∧ (ticking 399 0).run = true ∧
    (ticking 399 0).ifFlag = true ∧ (ticking 399 0).ie = true ∧ (ticking 399 0).sidx.toNat < 400 := by decide
theorem wit_QuiescentBlockOnlyTicks : (ticking 0 0).gbusy = false ∧ (ticking 0 0).pend = false ∧
    Instr.tick.isHost = false ∧ (∃ t, exec .tick (ticking 0 0) = .next t) ∧ ∃ t, exec .tFire (ticking 0 0) = .next t :=
  ⟨rfl, rfl, rfl, ⟨_, rfl⟩, ⟨_, rfl⟩⟩

/-! Good states. -/

theorem full_written : ∀ i, i < 400 → full.get? i = some 7 := by decide +kernel

/-- A block in mid-stream and mid-pass, WT whole. -/
def busy : State :=
  { base with
    run := true, ie := true, ifFlag := true, sclkFreq := 400, freq := 1, sidx := 399, gbusy := true, gidx := 1, wtab := full
    turns := [.streaming] }

theorem busy_inv : busy.Inv where
  param := ⟨by decide, by decide, by decide, by decide, by decide, rfl, by decide⟩
  index := ⟨by decide, by decide, by decide, by decide⟩
  clock := ⟨by decide, fun _ => rfl, fun _ => rfl, fun _ => by decide⟩
  table := ⟨by decide +kernel, rfl,
    fun _ i h => by rw [show busy.wtab.get? i = some 7 from full_written i (Nat.lt_trans h (by decide))]; rfl,
    fun _ i h => by rw [show busy.wtab.get? i = some 7 from full_written i h]; rfl⟩

theorem wit_EveryStepKeepsTheInvariant : busy.Inv ∧ ∃ t, step busy = .next t := ⟨busy_inv, ⟨_, rfl⟩⟩
theorem wit_LiveBlockAlwaysSteps : busy.Inv ∧ busy.halt = false := ⟨busy_inv, rfl⟩
theorem wit_TickNeverReadsADraw : busy.Inv ∧ ∃ t, exec .tick busy = .next t := ⟨busy_inv, ⟨_, rfl⟩⟩
theorem wit_EveryStepKeepsTheCleanPrefix :
    let s := { inPass 0 1 0 with wtab := [(0, 0)], turns := [.engine] }
    s.CleanPrefix ∧ s.gbusy = true ∧ s.taint = false ∧ ∃ t, step s = .next t := by
  refine ⟨fun _ _ i hi v hv => ?_, rfl, rfl, ⟨_, rfl⟩⟩
  obtain rfl : i = 0 := Nat.lt_one_iff.1 hi
  cases hv; rfl

/-- A pass waiting to be begun, of type c, with the engine alone moving. -/
def waiting (c : BitVec 3) : State :=
  { base with pend := true, wtype := c, atab := full, turns := List.replicate 402 .engine ++ [] }

theorem wit_PassTakes402EngineSteps : ∀ c, c ∈ [(0 : BitVec 3), 4] →
    (waiting c).halt = false ∧ (waiting c).gbusy = false ∧ (waiting c).pend = true ∧ (waiting c).run = false ∧
    (waiting c).ifFlag = false ∧ (waiting c).wtype.toNat ≤ 4 ∧
    (∀ i, i < 400 → ((waiting c).atab.get? i).isSome = true) ∧
    (waiting c).turns = List.replicate 402 .engine ++ [] := by
  intro c hc
  refine ⟨rfl, rfl, rfl, rfl, rfl, ?_, fun i hi => ?_, rfl⟩
  · revert c; decide
  · rw [show (waiting c).atab.get? i = some 7 from full_written i hi]; rfl

/-- The table an Off pass writes. -/
def zeros : Memory := (List.range 400).map fun i => (i, 0)
/-- A clean Off pass with every entry written, and a T.FIRE and a TICK to come before its G.FIN. -/
def ending (i p : BitVec 9) : State :=
  { base with
    gbusy := true, gidx := 400, run := true, ie := true, sidx := i, phaseidx := p
    wtab := zeros
    turns := [.timer, .streaming, .engine] }

theorem run_two {s t u : State} (h1 : step s = .next t) (h2 : step t = .next u) : Host.Core.run core 2 s = .next u := by
  simp [Host.Core.run, core, h1, h2]
/-- FREQ = 0, so that G.FIN ends the pass in the same way for every instance. -/
theorem ending_ends (i p : BitVec 9) (hi : i.toNat < 400) :
    ∃ t u, Host.Core.run core 2 (ending i p) = .next t ∧ t.gbusy = true ∧ step t = .next u ∧ u.gbusy = false ∧
      u.taint = false ∧ u.gtype = 0 ∧ u.maxduty = 0 ∧ u.duty = 0 ∧ u.ampl = 0 ∧ u.atab = [] := by
  have h1 := step_timer_of_run (s := ending i p) rfl rfl rfl
  obtain ⟨v, b, d, h2⟩ := step_stream_of_tick
    (s := { ending i p with ifFlag := true, turns := [.streaming, .engine] }) rfl rfl hi rfl
  exact ⟨_, _, run_two h1 h2, rfl,
    Eq.trans (step_engine rfl rfl rfl (decode_edv_done rfl rfl)) (exec_gFin_of_freq_zero rfl rfl rfl rfl rfl),
    rfl, rfl, rfl, rfl, rfl, rfl, rfl⟩

/-- Two such passes, in states that differ in what the table must not depend on. For the type Arbitrary, AT whole is
`full_written`. -/
theorem wit_TableDependsOnItsInputsAlone : ∀ x ∈ [((0 : BitVec 9), (0 : BitVec 9)), (399, 390)],
    (ending x.1 x.2).CleanPrefix ∧
    ∃ t u, Host.Core.run core 2 (ending x.1 x.2) = .next t ∧ t.gbusy = true ∧ step t = .next u ∧ u.gbusy = false ∧
      u.taint = false ∧ u.gtype = 0 ∧ u.maxduty = 0 ∧ u.duty = 0 ∧ u.ampl = 0 ∧ u.atab = [] := by
  have hw : ∀ i, i < 400 → zeros.get? i = some 0 := by decide +kernel
  intro x hx
  refine ⟨fun _ _ i hi v hv => ?_, ending_ends _ _ ?_⟩
  · cases hv; exact hw i hi
  · simp only [List.mem_cons, List.not_mem_nil, or_false] at hx
    rcases hx with rfl | rfl <;> decide
theorem wit_TickPairsWalkTheTable :
    let s := { base with
      run := true, ie := true, sidx := 399, wtab := full
      turns := (List.replicate 2 [Agent.timer, Agent.streaming]).flatten ++ [Agent.host] }
    s.halt = false ∧ s.run = true ∧ s.ie = true ∧ s.ifFlag = false ∧ s.sidx.toNat < 400 ∧
    (∀ i, i < 400 → s.wtab.get? i = some (7 : Sample)) ∧
    s.turns = (List.replicate 2 [Agent.timer, Agent.streaming]).flatten ++ [Agent.host] :=
  ⟨rfl, rfl, rfl, rfl, by decide, full_written, rfl⟩
theorem wit_LoadFillsTheArbitraryTable :
    let s := { base with
      port := (List.range 400).map (fun _ => 0x57000000#32 ||| (7 : Imm16).setWidth 32) ++ []
      turns := List.replicate 400 Agent.host ++ [] }
    s.halt = false ∧ (s.ifFlag && s.ie) = false ∧ s.lidx = 0 ∧
    s.port = (List.range 400).map (fun _ => 0x57000000#32 ||| (7 : Imm16).setWidth 32) ++ [] ∧
    s.turns = List.replicate 400 Agent.host ++ [] := ⟨rfl, rfl, rfl, rfl, rfl⟩
/-- SquareHasDutyIndexHighEntries, TriangleRisesThenFalls (its clauses at DUTY 1 and 99) and
TriggerWindowHas21Indices. -/
theorem wit_table_laws : 0 < 1000 ∧ 0 ≤ 100 ∧ 100 ≤ 100 ∧ (1 ≤ 1 * 400 / 100) ∧ (99 * 400 / 100 ≤ 399) ∧
    (99 * 400 / 100 ≤ 396 ∧ 396 ≤ 399 ∧ 399 < 400) ∧ (0 ≤ 3 ∧ 3 < 1 * 400 / 100) ∧ 399 < 400 := by decide
theorem wit_ComputedSamplesStayInTheDutyDomain :
    let s := { busy with ifFlag := false }
    s.Inv ∧ s.taint = false ∧ Instr.gOff ∈ [Instr.gOff, .gSine, .gSqr, .gTri] ∧ ∃ t, exec .gOff s = .next t := by
  obtain ⟨⟨a, b, c, d, e, f, g⟩, ⟨h, i, j, k⟩, ⟨l, m, -, o⟩, ⟨p, q, r, t⟩⟩ := busy_inv
  exact ⟨⟨⟨a, b, c, d, e, f, g⟩, ⟨h, i, j, k⟩, ⟨l, m, fun _ => rfl, o⟩, ⟨p, q, r, t⟩⟩, rfl, by decide, ⟨_, rfl⟩⟩

end Sys2Proof.Tests
end

section
/-! PROOFS. Whose turn a step is (R11), and what it runs: one lemma per agent for the step, one per agent for the
decoded operation. -/

namespace Sys2Proof.Machine

variable {s : State}

theorem step_of_host_turn (hhalt : s.halt = false) (htick : (s.ifFlag && s.ie) = false) (hturn : s.turn = .host) :
    step s = hostTurn s := by
  simp [step, takeTurn, hhalt, hturn, State.tickEnabled_of_live hhalt, htick]

theorem step_of_engine_turn (hhalt : s.halt = false) (htick : (s.ifFlag && s.ie) = false) (hturn : s.turn = .engine) :
    step s = engineTurn s := by
  simp [step, takeTurn, hhalt, hturn, State.tickEnabled_of_live hhalt, htick]

/-- No TICK comes before the timer's turn (R197). -/
theorem step_of_timer_turn (hhalt : s.halt = false) (hturn : s.turn = .timer) : step s = timerTurn s := by
  simp [step, takeTurn, hhalt, hturn]

theorem step_of_streaming_turn (hhalt : s.halt = false) (hturn : s.turn = .streaming) : step s = streamTurn s := by
  simp [step, takeTurn, hhalt, hturn]

theorem hostTurn_of_decode {w : CmdWord} {rest : List CmdWord} {i : Instr} (hport : s.port = w :: rest)
    (hdec : decode (.cmd w) = .ok i) : hostTurn s = exec i { s.endTurn with port := rest } := by
  simp [hostTurn, hport, hdec]

theorem engineTurn_of_decode {i : Instr} (hdec : decode (.edv s.edv) = .ok i) : engineTurn s = exec i s.endTurn := by
  simp [engineTurn, hdec]

theorem timerTurn_of_run (hrun : s.run = true) : timerTurn s = exec .tFire s.endTurn := by
  simp [timerTurn, decode_timer_sdv, hrun]

theorem streamTurn_of_tick (hif : s.ifFlag = true) (hie : s.ie = true) : streamTurn s = exec .tick s.endTurn := by
  simp [streamTurn, decode_stream_sdv, hif, hie]

/-! ## The obligations on what a step runs (R11, R98, R100, R102) -/

/-- Settles O7: the step is the host's turn, and that turn runs what its oldest word decodes to. -/
theorem stepRunsTheHostCommand : Obligations.StepRunsTheHostCommand := by
  intro s w rest i hhalt htick hturn hport hdec
  rw [step_of_host_turn hhalt htick hturn, hostTurn_of_decode hport hdec]

/-- Settles O8: the step is the engine's turn, and that turn runs what EDV decodes to. -/
theorem stepRunsTheEngineOperation : Obligations.StepRunsTheEngineOperation := by
  intro s i hhalt htick hturn hdec
  rw [step_of_engine_turn hhalt htick hturn, engineTurn_of_decode hdec]

/-- Settles O9: neither turn gives way to a TICK, and SDV decodes to T.FIRE when RUN = 1 and to TICK when one is
enabled. -/
theorem stepRunsTheStreamOperation : Obligations.StepRunsTheStreamOperation := by
  intro s hhalt
  constructor
  · intro hturn hrun
    rw [step_of_timer_turn hhalt hturn, timerTurn_of_run hrun]
  · intro hturn hif hie
    rw [step_of_streaming_turn hhalt hturn, streamTurn_of_tick hif hie]

end Sys2Proof.Machine
end

section
/-! PROOFS. What an operation can do to the state, in one relation: the operation and the state it leads to, with the
parts of its guard that the invariant needs. Everything said of all operations below is a case analysis of it. -/

namespace Sys2Proof.Machine

variable {s t : State} {i : Instr}

/-- Operation i may lead from s to t (`effect_of_exec`). A register that a constructor's state does not name is as it was. -/
inductive Effect (s : State) : Instr → State → Prop
  | rejected (i : Instr) (c : ReportCode) (hi : i.isHost = true) : Effect s i (s.report c)
  | setfZero : Effect s (.setf 0) (State.report (State.taintIfBusy { s with freq := 0, wtype := 0 }) .ok)
  | setf (n : Imm16) (hn : n.toNat ≤ 300) :
      Effect s (.setf n) (State.report { s with freq := BitVec.ofNat 9 n.toNat } .ok)
  | setvZero :
      Effect s (.setv 0) (State.report (State.taintIfBusy { s with ampl := 0, maxduty := 0, wtype := 0 }) .ok)
  | setv (n : Imm16) (hn : n.toNat ≤ 33) :
      Effect s (.setv n) (State.report (State.taintIfBusy { s with
        ampl := BitVec.ofNat 6 n.toNat, maxduty := BitVec.ofNat 16 (dutyCeiling n.toNat) }) .ok)
  | setp (n : Imm16) (p : Nat) (hp : p < 360) :
      Effect s (.setp n) (State.report { s with
        phase := BitVec.ofNat 9 p, phaseidx := BitVec.ofNat 9 (p * 400 / 360) } .ok)
  | setd (n : Imm16) (hn : n.toNat ≤ 100) :
      Effect s (.setd n) (State.report (State.taintIfBusy { s with duty := BitVec.ofNat 7 n.toNat }) .ok)
  | wave (i : Instr) (c : BitVec 3) (hi : waveCode i = some c) (hc : c.toNat ≤ 4) :
      Effect s i (State.report (s.selectWave c) .ok)
  | stop : Effect s .stop (State.report { s with run := false } .ok)
  | regen : Effect s .regen (State.report { s with pend := true } .ok)
  | lbeg : Effect s .lbeg (State.report { s with lidx := 0 } .ok)
  | lpush (v : Imm16) (c : ReportCode) (hl : s.lidx.toNat < 400) :
      Effect s (.lpush v) (State.report { (s.writeAT s.lidx.toNat v).taintIfBusy with
        lidx := BitVec.ofNat 9 (nextIndex s.lidx.toNat) } c)
  | gStart :
      Effect s .gStart { s with pend := false, gbusy := true, gidx := 0, gtype := s.wtype, taint := false }
  | generator (i : Instr) (w : Sample) (d : Nat) (hi : i.isGenerator = true) (hb : s.gbusy = true)
      (hg : s.gidx.toNat < 400) :
      Effect s i { s with
        wtab := s.wtab.set s.gidx.toNat w, gidx := BitVec.ofNat 9 (s.gidx.toNat + 1), draws := d }
  | finish (hb : s.gbusy = true) (hg : s.gidx.toNat = 400)
      (hf : Config.sclkRepresentable (400 * s.freq.toNat) = true) :
      Effect s .gFin { s with
        sclkFreq := BitVec.ofNat 17 (400 * s.freq.toNat), cfgerr := false, ie := true, run := true, gbusy := false }
  | finishError : Effect s .gFin { s.report .configError with cfgerr := true, gbusy := false }
  | tFire (hr : s.run = true) : Effect s .tFire { s with ifFlag := true }
  | tick (v : Sample) (b : Bool) (d : Nat) :
      Effect s .tick { s with
        pwmDuty := v, trig := b, sidx := BitVec.ofNat 9 (nextIndex s.sidx.toNat), ifFlag := false, draws := d,
        history := .trigger b :: .setDutyCycle v :: s.history }

theorem effect_wave {c : BitVec 3} (hi : waveCode i = some c) (h : exec i s = .next t) : Effect s i t := by
  obtain ⟨-, hc, rfl⟩ := exec_wave_next hi h
  exact .wave i c hi hc

theorem effect_generator (hi : i.isGenerator = true) (h : exec i s = .next t) : Effect s i t := by
  obtain ⟨-, hb, hg, -, w, d, rfl⟩ := exec_generator_next hi h
  exact .generator i w d hi hb hg

/-- Every operation that runs has one of these effects. -/
theorem effect_of_exec (h : exec i s = .next t) : Effect s i t := by
  cases i with
  | setf n =>
    obtain ⟨-, ⟨-, rfl⟩ | ⟨h0, rfl⟩ | ⟨-, hn, rfl⟩⟩ := exec_setf_next h
    · exact .rejected _ _ rfl
    · obtain rfl : n = 0 := BitVec.eq_of_toNat_eq h0
      exact .setfZero
    · exact .setf n hn
  | setv n =>
    obtain ⟨-, ⟨-, rfl⟩ | ⟨h0, rfl⟩ | ⟨-, hn, rfl⟩⟩ := exec_setv_next h
    · exact .rejected _ _ rfl
    · obtain rfl : n = 0 := BitVec.eq_of_toNat_eq h0
      exact .setvZero
    · exact .setv n hn
  | setp n =>
    obtain ⟨-, ⟨-, rfl⟩ | ⟨-, p, hp, rfl⟩⟩ := exec_setp_next h
    · exact .rejected _ _ rfl
    · exact .setp n p hp
  | setd n =>
    obtain ⟨-, ⟨-, rfl⟩ | ⟨hn, rfl⟩⟩ := exec_setd_next h
    · exact .rejected _ _ rfl
    · exact .setd n hn
  | wsin | wtri | wsqr | warb | woff => exact effect_wave rfl h
  | stop => obtain ⟨-, rfl⟩ := exec_stop_next h; exact .stop
  | regen => obtain ⟨-, rfl⟩ := exec_regen_next h; exact .regen
  | lbeg => obtain ⟨-, rfl⟩ := exec_lbeg_next h; exact .lbeg
  | lpush v => obtain ⟨-, hl, rfl⟩ := exec_lpush_next h; exact .lpush v _ hl
  | gStart => obtain ⟨-, -, -, rfl⟩ := exec_gStart_next h; exact .gStart
  | gOff | gSine | gSqr | gTri | gArb => exact effect_generator rfl h
  | gFin =>
    obtain ⟨-, hb, hg, ⟨hf, rfl⟩ | ⟨-, rfl⟩⟩ := exec_gFin_next h
    · exact .finish hb hg hf
    · exact .finishError
  | tFire => obtain ⟨-, hr, rfl⟩ := exec_tFire_next h; exact .tFire hr
  | tick => obtain ⟨v, b, d, rfl⟩ := exec_tick_state h; exact .tick v b d

/-! ## Each register's writers (R29 to R45): the named cases are the writers, every other effect leaves it alone. -/

theorem mem_waves_of_waveCode {c : BitVec 3} (h : waveCode i = some c) : i ∈ [.wsin, .wtri, .wsqr, .warb, .woff] := by
  cases i <;> simp [waveCode] at h ⊢

theorem breaksPass_of_waveCode {c : BitVec 3} (h : waveCode i = some c) : i.breaksPass = true := by
  cases i <;> simp [waveCode, Instr.breaksPass] at h ⊢

theorem Effect.wtype_eq (e : Effect s i t) (h0 : ∀ n, i = .setf n ∨ i = .setv n → n ≠ 0)
    (hw : i ∉ [.wsin, .wtri, .wsqr, .warb, .woff]) : t.wtype = s.wtype := by
  cases e with
  | setfZero => exact absurd rfl (h0 0 (.inl rfl))
  | setvZero => exact absurd rfl (h0 0 (.inr rfl))
  | wave i c hi => exact absurd (mem_waves_of_waveCode hi) hw
  | _ => rfl

theorem Effect.freq_eq (e : Effect s i t) (h : ∀ n, i ≠ .setf n) : t.freq = s.freq := by
  cases e with
  | setfZero | setf => exact absurd rfl (h _)
  | _ => rfl

theorem Effect.ampl_eq (e : Effect s i t) (h : ∀ n, i ≠ .setv n) : t.ampl = s.ampl ∧ t.maxduty = s.maxduty := by
  cases e with
  | setvZero | setv => exact absurd rfl (h _)
  | _ => exact ⟨rfl, rfl⟩

theorem Effect.phase_eq (e : Effect s i t) (h : ∀ n, i ≠ .setp n) : t.phase = s.phase ∧ t.phaseidx = s.phaseidx := by
  cases e with
  | setp => exact absurd rfl (h _)
  | _ => exact ⟨rfl, rfl⟩

theorem Effect.duty_eq (e : Effect s i t) (h : ∀ n, i ≠ .setd n) : t.duty = s.duty := by
  cases e with
  | setd => exact absurd rfl (h _)
  | _ => rfl

theorem Effect.tickOutputs_eq (e : Effect s i t) (h : i ≠ .tick) :
    t.sidx = s.sidx ∧ t.pwmDuty = s.pwmDuty ∧ t.trig = s.trig := by
  cases e with
  | tick => exact absurd rfl h
  | _ => exact ⟨rfl, rfl, rfl⟩

theorem Effect.lidx_eq (e : Effect s i t) (hb : i ≠ .lbeg) (hp : ∀ v, i ≠ .lpush v) : t.lidx = s.lidx := by
  cases e with
  | lbeg => exact absurd rfl hb
  | lpush => exact absurd rfl (hp _)
  | _ => rfl

theorem Effect.gtype_eq (e : Effect s i t) (h : i ≠ .gStart) : t.gtype = s.gtype := by
  cases e with
  | gStart => exact absurd rfl h
  | _ => rfl

theorem Effect.gidx_eq (e : Effect s i t) (h : i ≠ .gStart) (hg : i.isGenerator = false) : t.gidx = s.gidx := by
  cases e with
  | gStart => exact absurd rfl h
  | generator i w d hi => rw [hg] at hi; cases hi
  | _ => rfl

theorem Effect.gbusy_eq (e : Effect s i t) (h : i ≠ .gStart) (hf : i ≠ .gFin) : t.gbusy = s.gbusy := by
  cases e with
  | gStart => exact absurd rfl h
  | finish | finishError => exact absurd rfl hf
  | _ => rfl

theorem Effect.pend_eq (e : Effect s i t) (h : i ≠ .gStart) (hr : i ≠ .regen) : t.pend = s.pend := by
  cases e with
  | gStart => exact absurd rfl h
  | regen => exact absurd rfl hr
  | _ => rfl

theorem Effect.taint_eq (e : Effect s i t) (h : i ≠ .gStart) (hb : i.breaksPass = false) : t.taint = s.taint := by
  cases e with
  | gStart => exact absurd rfl h
  | setfZero | setvZero | lpush => cases hb
  | setv n hn | setd n hn => exact absurd hn (of_decide_eq_false hb)
  | wave i c hi => rw [breaksPass_of_waveCode hi] at hb; cases hb
  | _ => rfl

theorem Effect.clock_eq (e : Effect s i t) (h : i ≠ .gFin) :
    t.sclkFreq = s.sclkFreq ∧ t.ie = s.ie ∧ t.cfgerr = s.cfgerr := by
  cases e with
  | finish | finishError => exact absurd rfl h
  | _ => exact ⟨rfl, rfl, rfl⟩

theorem Effect.run_eq (e : Effect s i t) (hf : i ≠ .gFin) (hs : i ≠ .stop) : t.run = s.run := by
  cases e with
  | finish => exact absurd rfl hf
  | stop => exact absurd rfl hs
  | _ => rfl

theorem Effect.ifFlag_eq (e : Effect s i t) (hf : i ≠ .tFire) (ht : i ≠ .tick) : t.ifFlag = s.ifFlag := by
  cases e with
  | tFire => exact absurd rfl hf
  | tick => exact absurd rfl ht
  | _ => rfl

theorem Effect.halt_eq (e : Effect s i t) : t.halt = s.halt := by
  cases e <;> rfl

/-- Settles O37: the writers of each register, one lemma each, put together. -/
theorem everyRegisterHasItsWriters : Obligations.EveryRegisterHasItsWriters := by
  intro i s t h
  have e := effect_of_exec h
  exact ⟨e.wtype_eq, e.freq_eq, e.ampl_eq, e.phase_eq, e.duty_eq, e.tickOutputs_eq, e.lidx_eq, e.gtype_eq, e.gidx_eq,
    e.gbusy_eq, e.pend_eq, e.taint_eq, e.clock_eq, e.run_eq, e.ifFlag_eq, e.halt_eq⟩

/-! ## HALT (R43, R195) -/

theorem exec_of_halt (h : s.halt = true) (i : Instr) : exec i s = .fault .halted := by
  cases i with
  | tFire | tick => exact hardwareStep_of_halt h
  | _ => exact taskStep_of_halt h

theorem step_of_halt (h : s.halt = true) : step s = .fault .halted := by
  simp [step, takeTurn, h]

theorem step_halt (h : step s = .next t) : t.halt = s.halt :=
  step_keeps (P := fun u => u.halt = s.halt) (fun _ _ _ hu hv => (effect_of_exec hv).halt_eq.trans hu)
    (fun u hu => u.endTurn_halt.trans hu) (fun _ _ hu => hu) (fun _ hu => hu) rfl h

/-- Settles O12: no effect and no turn writes HALT, and HALT is the first guard of a step and of every operation. -/
theorem haltIsFixedAndFatal : Obligations.HaltIsFixedAndFatal :=
  ⟨rfl, fun _ _ => step_halt, fun _ _ _ h => (effect_of_exec h).halt_eq, fun _ h => ⟨step_of_halt h, exec_of_halt h⟩⟩

end Sys2Proof.Machine
end

section
/-! PROOFS. The block's invariant: it holds at reset, every effect keeps each of its four parts, and it says nothing of
the model's own fields, so every step keeps it. -/

namespace Sys2Proof.Machine

variable {s t : State} {i : Instr}

/-! ## The parameter registers (R28) -/

/-- SETV's MAXDUTY fits its sixteen bits. -/
theorem dutyCeiling_toNat {n : Nat} (h : n ≤ 33) : (BitVec.ofNat 16 (dutyCeiling n)).toNat = dutyCeiling n := by
  have h1 := dutyCeiling_le h
  have h2 := dutyMax_range
  rw [BitVec.toNat_ofNat]; omega

theorem Effect.paramInv (e : Effect s i t) (hs : s.ParamInv) : t.ParamInv := by
  obtain ⟨hw, hf, ha, hp, hd, hm, hx⟩ := hs
  cases e with
  | setfZero => exact ⟨Nat.zero_le _, Nat.zero_le _, ha, hp, hd, hm, hx⟩
  | setf n hn =>
    refine ⟨hw, ?_, ha, hp, hd, hm, hx⟩
    simp only [State.report_freq, BitVec.toNat_ofNat]; omega
  | setvZero => exact ⟨Nat.zero_le _, hf, Nat.zero_le _, hp, hd, by simp, hx⟩
  | setv n hn =>
    have hn6 : (BitVec.ofNat 6 n.toNat).toNat = n.toNat := by rw [BitVec.toNat_ofNat]; omega
    refine ⟨hw, hf, hn6.trans_le hn, hp, hd, ?_, hx⟩
    exact (dutyCeiling_toNat hn).trans (by simp only [State.report_ampl, State.taintIfBusy_ampl, hn6]; rfl)
  | setp n p hp360 =>
    have hp9 : (BitVec.ofNat 9 p).toNat = p := by rw [BitVec.toNat_ofNat]; omega
    refine ⟨hw, hf, ha, ?_, hd, hm, ?_⟩
    · exact hp9.trans_le (by omega)
    · simp only [State.report_phase, State.report_phaseidx, hp9, BitVec.toNat_ofNat]; omega
  | setd n hn =>
    refine ⟨hw, hf, ha, hp, ?_, hm, hx⟩
    simp only [State.report_duty, State.taintIfBusy_duty, BitVec.toNat_ofNat]; omega
  | wave i c hi hc => exact ⟨hc, hf, ha, hp, hd, hm, hx⟩
  | _ => exact ⟨hw, hf, ha, hp, hd, hm, hx⟩

/-! ## The counters (R30, R32, R33, R99) -/

theorem nextIndex_toNat_lt (j : Nat) : (BitVec.ofNat 9 (nextIndex j)).toNat < 400 := by
  rw [nextIndex_toNat]; exact nextIndex_lt j

/-- The one case that needs more than its own kind of fact is G.START, which latches WTYPE into GTYPE. -/
theorem Effect.indexInv (e : Effect s i t) (hw : s.wtype.toNat ≤ 4) (hs : s.IndexInv) : t.IndexInv := by
  obtain ⟨hx, hl, hg, hc⟩ := hs
  cases e with
  | lbeg => exact ⟨hx, Nat.zero_lt_succ _, hg, hc⟩
  | lpush => exact ⟨hx, nextIndex_toNat_lt _, hg, hc⟩
  | gStart => exact ⟨hx, hl, Nat.zero_le _, hw⟩
  | generator i w d hi hb hlt => exact ⟨hx, hl, (gidx_succ hlt).trans_le hlt, hc⟩
  | tick => exact ⟨nextIndex_toNat_lt _, hl, hg, hc⟩
  | _ => exact ⟨hx, hl, hg, hc⟩

/-! ## The sample clock (R36, R181) -/

theorem ofNat_toNat_of_sclkRepresentable {f : Nat} (h : Config.sclkRepresentable f = true) :
    0 < (BitVec.ofNat 17 f).toNat ∧ (BitVec.ofNat 17 f).toNat ≤ 120000 := by
  have := sclkRepresentable_range h
  rw [BitVec.toNat_ofNat]; omega

/-- T.FIRE sets IF only where RUN = 1, so IE = 1; G.FIN sets RUN together with IE and a clock that exists. -/
theorem Effect.clockInv (e : Effect s i t) (hs : s.ClockInv) : t.ClockInv := by
  obtain ⟨hk, hrun, hif, hpos⟩ := hs
  cases e with
  | stop => exact ⟨hk, nofun, hif, nofun⟩
  | finish hb hg hf =>
    obtain ⟨hlo, hhi⟩ := ofNat_toNat_of_sclkRepresentable hf
    exact ⟨hhi, fun _ => rfl, fun _ => rfl, fun _ => hlo⟩
  | tFire hr => exact ⟨hk, hrun, fun _ => hrun hr, hpos⟩
  | tick => exact ⟨hk, hrun, nofun, hpos⟩
  | _ => exact ⟨hk, hrun, hif, hpos⟩

/-! ## The tables (R46, R63) -/

/-- A write leaves no entry unwritten that was written before. -/
theorem Memory.isSome_get?_set {m : Memory} {a : Nat} (i : Nat) (v : Sample) (h : (m.get? a).isSome = true) :
    ((m.set i v).get? a).isSome = true := by
  rw [Memory.get?_set]; split
  · rfl
  · exact h

/-- G.FIN is where the pass's promise becomes the stream's: GIDX = 400, so a pass's entries are all of WT. -/
theorem Effect.tableInv (e : Effect s i t) (hs : s.TableInv) : t.TableInv := by
  obtain ⟨hW, hA, hpass, htick⟩ := hs
  cases e with
  | lpush v c hl => exact ⟨hW, Memory.set_wf _ v hA hl, hpass, htick⟩
  | gStart => exact ⟨hW, hA, fun _ _ hj => absurd hj (Nat.not_lt_zero _), htick⟩
  | generator i w d hi hb hg =>
    refine ⟨Memory.set_wf _ w hW hg, hA, fun _ j hj => ?_, fun he j hj => Memory.isSome_get?_set _ w (htick he j hj)⟩
    rw [gidx_succ hg] at hj
    obtain hlt | rfl := Nat.lt_succ_iff_lt_or_eq.1 hj
    · exact Memory.isSome_get?_set _ w (hpass hb j hlt)
    · exact Option.isSome_of_mem (Memory.get?_set_same _ _ w)
  | finish hb hg => exact ⟨hW, hA, nofun, fun _ j hj => hpass hb j (hg ▸ hj)⟩
  | finishError => exact ⟨hW, hA, nofun, htick⟩
  | _ => exact ⟨hW, hA, hpass, htick⟩

/-! ## The whole -/

theorem exec_keeps_inv (hs : s.Inv) (h : exec i s = .next t) : t.Inv := by
  have e := effect_of_exec h
  exact ⟨e.paramInv hs.param, e.indexInv hs.param.wtype_le hs.index, e.clockInv hs.clock, e.tableInv hs.table⟩

/-- The invariant says nothing of the port, the schedule, the draw counter and the history. -/
theorem State.Inv.of_ownFields (hs : s.Inv) (p : List CmdWord) (q : List Agent) (d : Nat) (es : List Event) :
    State.Inv { s with port := p, turns := q, draws := d, history := es } := by
  obtain ⟨⟨hw, hf, ha, hp, hd, hm, hx⟩, ⟨hsx, hlx, hg, hc⟩, ⟨hk, hrun, hif, hpos⟩, ⟨hW, hA, hpass, htick⟩⟩ := hs
  exact ⟨⟨hw, hf, ha, hp, hd, hm, hx⟩, ⟨hsx, hlx, hg, hc⟩, ⟨hk, hrun, hif, hpos⟩, ⟨hW, hA, hpass, htick⟩⟩

/-- Passing the turn moves the model's schedule or its draw counter and nothing of R20's. -/
theorem State.endTurn_state (s : State) : ∃ q d, s.endTurn = { s with turns := q, draws := d } := by
  unfold State.endTurn
  split
  · exact ⟨_, s.draws, rfl⟩
  · exact ⟨s.turns, _, rfl⟩

theorem State.Inv.endTurn (hs : s.Inv) : s.endTurn.Inv := by
  obtain ⟨q, d, h⟩ := s.endTurn_state
  rw [h]; exact hs.of_ownFields _ _ _ _

/-- Settles O48: every operation keeps the invariant, and what else a step does touches the model's own fields alone. -/
theorem everyStepKeepsTheInvariant : Obligations.EveryStepKeepsTheInvariant := by
  intro s t hs h
  exact step_keeps (P := State.Inv) (fun _ _ _ => exec_keeps_inv) (fun _ => State.Inv.endTurn)
    (fun _ _ hu => hu.of_ownFields _ _ _ _) (fun _ hu => hu.of_ownFields _ _ _ _) hs h

/-- Settles O47: at reset every register is 0 and no table entry is listed. -/
theorem resetMeetsTheInvariant : Obligations.ResetMeetsTheInvariant where
  param := ⟨by decide, by decide, by decide, by decide, by decide, by simp [State.reset], by decide⟩
  index := ⟨by decide, by decide, by decide, by decide⟩
  clock := ⟨by decide, nofun, nofun, nofun⟩
  table := ⟨rfl, rfl, nofun, nofun⟩

/-! ## What a TICK reads (R46, R77) -/

theorem State.readWT_of_get? {v : Sample} {j : Nat} (h : s.wtab.get? j = some v) : s.readWT j = (v, s) := by
  simp [State.readWT, h]

/-- Settles O50: a TICK runs only with IE = 1 and SIDX on the table, where the invariant has every entry written. -/
theorem tickNeverReadsADraw : Obligations.TickNeverReadsADraw := by
  intro s t hs h
  obtain ⟨-, -, hie, hx, rfl⟩ := exec_tick_next h
  obtain ⟨v, hv⟩ := Option.isSome_iff_exists.1 (hs.table.tick_written hie _ hx)
  rw [State.readWT_of_get? hv]
  exact ⟨hv, rfl⟩

end Sys2Proof.Machine
end

section
/-! PROOFS. The STATUS view (R45) and the state after reset (R49). -/

namespace Sys2Proof.Machine

theorem getLsbD_bit_zero (b : Bool) : (bit b).getLsbD 0 = b := by simp [bit]

theorem getLsbD_append_bit_zero {n : Nat} (x : BitVec n) (b : Bool) : (x ++ bit b).getLsbD 0 = b := by
  rw [BitVec.getLsbD_append]; simp [bit]

theorem getLsbD_append_bit_succ {n : Nat} (x : BitVec n) (b : Bool) (k : Nat) :
    (x ++ bit b).getLsbD (k + 1) = x.getLsbD k := by
  simp [BitVec.getLsbD_append]

/-- Settles O42: STATUS is the concatenation of the nine flags, RUN last, so bit k is the k-th flag from its end. -/
theorem statusShowsTheFlags : Obligations.StatusShowsTheFlags := by
  intro s
  simp only [State.status, getLsbD_append_bit_zero, getLsbD_append_bit_succ, getLsbD_bit_zero, and_self]

/-- Settles O45: `State.reset` writes out each of these values. -/
theorem resetState : Obligations.ResetState :=
  ⟨rfl, rfl, rfl, rfl, rfl, rfl, rfl, rfl, rfl, rfl, rfl, rfl, rfl, rfl, rfl, rfl, rfl, rfl, rfl, rfl, rfl,
    fun _ => ⟨rfl, rfl⟩, rfl⟩

end Sys2Proof.Machine
end

section
/-! PROOFS. What an untainted pass has written stays right (R71, R171): a command that changes what the pass reads
taints it, and a generator writes at GIDX what the law gives for the registers as they stand. -/

namespace Sys2Proof.Machine

variable {s t : State} {i : Instr}

/-- Whatever else an effect did, a pass it has tainted makes no promise. -/
theorem State.CleanPrefix.of_taint (hb : t.gbusy = s.gbusy) (ht : t.taint = (s.taint || s.gbusy)) : t.CleanPrefix := by
  intro hbusy hclean
  rw [ht, ← hb, hbusy, Bool.or_true] at hclean
  cases hclean

/-- Away from the generators, an effect begins a pass at GIDX = 0, ends it, taints it, or leaves alone all that
`CleanPrefix` speaks of. -/
theorem Effect.cleanPrefix (e : Effect s i t) (hi : i.isGenerator = false) (hs : s.CleanPrefix) : t.CleanPrefix := by
  cases e with
  | setfZero | setvZero | setv | setd | wave | lpush => exact .of_taint (s := s) rfl rfl
  | gStart => exact fun _ _ _ hj => absurd hj (Nat.not_lt_zero _)
  | generator _ _ _ hg => rw [hi] at hg; cases hg
  | finish | finishError => exact nofun
  | _ => exact hs

/-- A generator that reads no table computes the latched type's law at GIDX. -/
theorem entryLaw_of_plainSample {c : BitVec 3} {v : Nat} (hp : plainSample i s = some (c, v)) (hc : s.gtype = c) :
    s.entryLaw s.gidx.toNat = some v := by
  cases i <;> simp only [plainSample, Option.some.injEq, Prod.mk.injEq, reduceCtorEq] at hp <;>
    (obtain ⟨rfl, rfl⟩ := hp
     simp [State.entryLaw, hc])

/-- Type 4's law has a value exactly where AT has been written. -/
theorem entryLaw_arbitrary (hc : s.gtype = 4) (j : Nat) :
    s.entryLaw j = (s.atab.get? j).map fun a => sampleArbitrary a.toNat s.ampl.toNat := by
  simp [State.entryLaw, hc]

theorem isGenerator_cases (hi : i.isGenerator = true) : i = .gArb ∨ ∃ c v, plainSample i s = some (c, v) := by
  cases i with
  | gArb => exact .inl rfl
  | gOff | gSine | gSqr | gTri => exact .inr ⟨_, _, rfl⟩
  | _ => cases hi

/-- An untainted generator writes the law's value at GIDX, where the law has one. -/
theorem exec_generator_wtab (hi : i.isGenerator = true) (ht : s.taint = false) (h : exec i s = .next t) {v : Nat}
    (hv : s.entryLaw s.gidx.toNat = some v) : t.wtab = s.wtab.set s.gidx.toNat (BitVec.ofNat 16 v) := by
  obtain rfl | ⟨c, v', hp⟩ := isGenerator_cases (s := s) hi
  · obtain ⟨-, -, -, hc, rfl⟩ := exec_gArb_next h
    rw [entryLaw_arbitrary hc, Option.map_eq_some_iff] at hv
    obtain ⟨a, ha, rfl⟩ := hv
    rw [State.readAT, ha]
    exact congrArg State.wtab (State.putSample_clean ht _)
  · obtain ⟨-, -, -, hc, rfl⟩ := exec_plain_next hp h
    obtain rfl : v' = v := Option.some.inj ((entryLaw_of_plainSample hp hc).symm.trans hv)
    exact congrArg State.wtab (State.putSample_clean ht _)

/-- The entries below GIDX are as they were, and the law does not read WT or GIDX. -/
theorem exec_generator_cleanPrefix (hi : i.isGenerator = true) (hs : s.CleanPrefix) (h : exec i s = .next t) :
    t.CleanPrefix := by
  obtain ⟨-, -, hg, -, w, d, rfl⟩ := exec_generator_next hi h
  intro hb ht j hj v hv
  have hlaw : s.entryLaw j = some v := hv
  rw [gidx_succ hg] at hj
  obtain hlt | rfl := Nat.lt_succ_iff_lt_or_eq.1 hj
  · exact (Memory.get?_set_other _ _ hlt.ne).trans (hs hb ht j hlt v hlaw)
  · rw [exec_generator_wtab (s := s) hi ht h hlaw, Memory.get?_set_same]

theorem exec_keeps_cleanPrefix (hs : s.CleanPrefix) (h : exec i s = .next t) : t.CleanPrefix := by
  cases hi : i.isGenerator with
  | false => exact (effect_of_exec h).cleanPrefix hi hs
  | true => exact exec_generator_cleanPrefix hi hs h

/-- `CleanPrefix` says nothing of the model's own fields. -/
theorem State.CleanPrefix.endTurn (hs : s.CleanPrefix) : s.endTurn.CleanPrefix := by
  obtain ⟨q, d, h⟩ := s.endTurn_state
  rw [h]; exact hs

/-- Settles O51: every operation keeps `CleanPrefix`, and what else a step does touches the model's own fields alone. -/
theorem everyStepKeepsTheCleanPrefix : Obligations.EveryStepKeepsTheCleanPrefix := by
  intro s t hs h
  exact step_keeps (P := State.CleanPrefix) (fun _ _ _ => exec_keeps_cleanPrefix) (fun _ => State.CleanPrefix.endTurn)
    (fun _ _ hu => hu) (fun _ hu => hu) hs h

end Sys2Proof.Machine
end

section
/-! PROOFS. The tables' writers (R69) and the stopped clock (R73, R150), case by case of what an operation can do. -/

namespace Sys2Proof.Machine

variable {s t : State} {i : Instr}

theorem Effect.wtab_get?_eq (e : Effect s i t) (a : Nat) (h : i.isGenerator = false ∨ a ≠ s.gidx.toNat) :
    t.wtab.get? a = s.wtab.get? a := by
  cases e with
  | generator _ w d hi =>
    have ha : a ≠ s.gidx.toNat := h.resolve_left (by rw [hi]; nofun)
    exact Memory.get?_set_other _ _ ha
  | _ => rfl

theorem Effect.atab_get?_eq (e : Effect s i t) (a : Nat) (h : (∀ v, i ≠ .lpush v) ∨ a ≠ s.lidx.toNat) :
    t.atab.get? a = s.atab.get? a := by
  cases e with
  | lpush v =>
    have ha : a ≠ s.lidx.toNat := h.resolve_left fun hn => hn v rfl
    exact Memory.get?_set_other _ _ ha
  | _ => rfl

/-- Settles O36: the generators' effect is the one that writes WT, LPUSH's the one that writes AT, each a single
entry. -/
theorem tablesHaveOneWriterEach : Obligations.TablesHaveOneWriterEach := by
  intro i s t h
  have e := effect_of_exec h
  exact ⟨e.wtab_get?_eq, e.atab_get?_eq⟩

theorem Effect.stopped (e : Effect s i t) (hrun : s.run = false) (hif : s.ifFlag = false) (hi : i ≠ .gFin) :
    t.run = false ∧ t.ifFlag = false := by
  cases e with
  | stop => exact ⟨rfl, hif⟩
  | finish | finishError => exact absurd rfl hi
  | tFire hr => rw [hrun] at hr; cases hr
  | tick => exact ⟨hrun, rfl⟩
  | _ => exact ⟨hrun, hif⟩

/-- Settles O38: RUN is set by G.FIN alone, and the one operation that sets IF, T.FIRE, needs RUN = 1. -/
theorem stoppedClockStaysQuiet : Obligations.StoppedClockStaysQuiet :=
  fun _ _ _ hrun hif hi h => (effect_of_exec h).stopped hrun hif hi

end Sys2Proof.Machine
end

section
/-! PROOFS. The computed samples stay in 0..DUTY_MAX (R61): each law stays in 0..MAXDUTY, and MAXDUTY in 0..DUTY_MAX. -/

namespace Sys2Proof.Machine

variable {s : State} {i : Instr}

theorem sampleSquare_le (m duty j : Nat) : sampleSquare m duty j ≤ m := by
  unfold sampleSquare
  split
  · exact Nat.le_refl m
  · exact Nat.zero_le m

/-- The rise is a part `j / di < 1` of MAXDUTY; the fall takes a part away. -/
theorem sampleTriangle_le (m duty j : Nat) : sampleTriangle m duty j ≤ m := by
  unfold sampleTriangle
  split
  · next hj => exact Nat.div_le_of_le_mul (Nat.mul_le_mul_right m hj.le)
  · exact Nat.sub_le _ _

theorem plainSample_le {c : BitVec 3} {v : Nat} (hg : s.gidx.toNat < 400) (hp : plainSample i s = some (c, v)) :
    v ≤ s.maxduty.toNat := by
  cases i with
  | gOff => cases hp; exact Nat.zero_le _
  | gSine => cases hp; exact sampleSine_le hg
  | gSqr => cases hp; exact sampleSquare_le ..
  | gTri => cases hp; exact sampleTriangle_le ..
  | _ => cases hp

theorem State.ParamInv.maxduty_le (hs : s.ParamInv) : s.maxduty.toNat ≤ Config.dutyMax :=
  hs.maxduty_eq.trans_le (dutyCeiling_le hs.ampl_le)

/-- Settles O58: the entry written is the generator's law at GIDX, and the law's value is at most MAXDUTY. -/
theorem computedSamplesStayInTheDutyDomain : Obligations.ComputedSamplesStayInTheDutyDomain := by
  intro i s t hi hs ht h
  obtain ⟨c, v, hp⟩ : ∃ c v, plainSample i s = some (c, v) := by
    simp only [List.mem_cons, List.not_mem_nil, or_false] at hi
    obtain rfl | rfl | rfl | rfl := hi <;> exact ⟨_, _, rfl⟩
  obtain ⟨-, -, hg, -, rfl⟩ := exec_plain_next hp h
  rw [State.putSample_clean ht]
  refine ⟨BitVec.ofNat 16 v, Memory.get?_set_same _ _ _, ?_⟩
  calc (BitVec.ofNat 16 v).toNat ≤ v := by rw [BitVec.toNat_ofNat]; exact Nat.mod_le _ _
    _ ≤ s.maxduty.toNat := plainSample_le hg hp
    _ ≤ Config.dutyMax := hs.param.maxduty_le

end Sys2Proof.Machine
end

section
/-! PROOFS. Progress (R65, R99): in a good state every operation an agent's turn selects has its guard, so every turn of
a live block answers a next state. -/

namespace Sys2Proof.Machine

variable {s : State} {i : Instr}

/-! ## Which operation a turn selects -/

/-- R102's table holds host commands alone. -/
theorem isHost_of_decode {w : CmdWord} (h : decode (.cmd w) = .ok i) : i.isHost = true := by
  revert h
  rw [decode]
  fun_cases decodeCmd w <;> intro h <;> cases h <;> rfl

theorem decode_edv_idle (hb : s.gbusy = false) :
    decode (.edv s.edv) = if s.pend then .ok .gStart else .error .engineWaits := by
  have hdec : ∀ (d p : Bool) (x : BitVec 3),
      decodeEdv (bit false ++ bit d ++ bit p ++ x) = if p then .ok .gStart else .error .engineWaits := by decide
  simp only [decode, State.edv, hb, hdec]

/-- The five generators: the type code each runs for (R98). -/
def generatorCode : Instr → Option (BitVec 3)
  | .gOff => some 0
  | .gSine => some 1
  | .gSqr => some 2
  | .gTri => some 3
  | .gArb => some 4
  | .setf _ | .setv _ | .setp _ | .setd _ | .stop | .regen | .lbeg | .lpush _ => none
  | .wsin | .wtri | .wsqr | .warb | .woff | .gStart | .gFin | .tFire | .tick => none

/-- Rows 0b10*000 to 0b10*100: in a pass the engine's operation is the generator of the latched type. -/
theorem decode_edv_generating (hb : s.gbusy = true) (hg : s.gidx.toNat < 400) (hc : s.gtype.toNat ≤ 4) :
    ∃ i, decode (.edv s.edv) = .ok i ∧ generatorCode i = some s.gtype := by
  have hdec : ∀ (p : Bool) (x : BitVec 3), x.toNat ≤ 4 →
      ∃ i ∈ [Instr.gOff, .gSine, .gSqr, .gTri, .gArb],
        decodeEdv (bit true ++ bit false ++ bit p ++ x) = .ok i ∧ generatorCode i = some x := by decide
  have hd : s.done = false := Bool.eq_false_iff.2 fun h => hg.ne (s.done_iff.1 h)
  obtain ⟨i, -, h⟩ := hdec s.pend s.gtype hc
  rw [← hb, ← hd] at h
  exact ⟨i, h⟩

/-! ## An operation whose guard holds runs -/

/-- No host command has a guard of its own, and LPUSH's index is on the table. -/
theorem exec_host_runs (hi : i.isHost = true) (hf : s.Free) (hl : s.lidx.toNat < 400) : ∃ t, exec i s = .next t := by
  obtain ⟨hh, ht⟩ := hf
  cases i with
  | setf n | setv n | setp n | setd n =>
    simp only [exec, execSetf, execSetv, execSetp, execSetd, taskStep_of_free hh ht]
    split <;> exact ⟨_, rfl⟩
  | lpush v =>
    simp only [exec, execLpush, taskStep_of_free hh ht, withEntry, if_pos hl]
    split <;> exact ⟨_, rfl⟩
  | wsin | wtri | wsqr | warb | woff | stop | regen | lbeg => exact ⟨_, taskStep_of_free hh ht rfl⟩
  | _ => cases hi

theorem exec_gStart_runs (hf : s.Free) (hb : s.gbusy = false) (hp : s.pend = true) : ∃ t, exec .gStart s = .next t :=
  ⟨_, taskStep_of_free hf.1 hf.2 (by rw [hb, hp]; rfl)⟩

theorem exec_generator_runs (hi : generatorCode i = some s.gtype) (hf : s.Free) (hb : s.gbusy = true)
    (hg : s.gidx.toNat < 400) : ∃ t, exec i s = .next t := by
  have hown : s.generating s.gtype = true := State.generating_iff.2 ⟨hb, hg, rfl⟩
  cases i <;> simp only [generatorCode, Option.some.injEq, reduceCtorEq] at hi <;>
    exact ⟨_, taskStep_of_free hf.1 hf.2 (hi ▸ hown)⟩

theorem exec_gFin_runs (hf : s.Free) (hb : s.gbusy = true) (hg : s.gidx.toNat = 400) :
    ∃ t, exec .gFin s = .next t := by
  have hown : (s.gbusy && s.done) = true := by rw [hb, s.done_iff.2 hg]; rfl
  simp only [exec, execGFin, taskStep_of_free hf.1 hf.2 hown]
  split <;> exact ⟨_, rfl⟩

theorem exec_tFire_runs (hh : s.halt = false) (hr : s.run = true) : ∃ t, exec .tFire s = .next t :=
  ⟨_, hardwareStep_of_live hh hr⟩

theorem exec_tick_runs (hh : s.halt = false) (ht : (s.ifFlag && s.ie) = true) (hx : s.sidx.toNat < 400) :
    ∃ t, exec .tick s = .next t :=
  ⟨_, (hardwareStep_of_live hh ht).trans (if_pos hx)⟩

/-! ## Each agent's turn -/

theorem State.Free.endTurn (hf : s.Free) : s.endTurn.Free := by
  simpa [State.Free] using hf

theorem hostTurn_runs (hs : s.Inv) (hf : s.Free) : ∃ t, hostTurn s = .next t := by
  unfold hostTurn
  split
  · exact ⟨_, rfl⟩
  · split
    · next hdec => exact exec_host_runs (isHost_of_decode hdec) hf.endTurn hs.endTurn.index.lidx_lt
    · exact ⟨_, rfl⟩

/-- The engine begins a pass, waits, generates, or ends the pass, as GBUSY, PEND and GIDX have it. -/
theorem engineTurn_runs (hs : s.Inv) (hf : s.Free) : ∃ t, engineTurn s = .next t := by
  cases hb : s.gbusy with
  | false =>
    have hdec := decode_edv_idle hb
    cases hp : s.pend with
    | false =>
      rw [hp] at hdec
      simp [engineTurn, hdec, idle]
    | true =>
      rw [hp] at hdec
      rw [engineTurn_of_decode hdec]
      exact exec_gStart_runs hf.endTurn (by simpa) (by simpa)
  | true =>
    obtain hg | hg := hs.index.gidx_le.lt_or_eq
    · obtain ⟨i, hdec, hi⟩ := decode_edv_generating hb hg hs.index.gtype_le
      rw [engineTurn_of_decode hdec]
      exact exec_generator_runs (by simpa) hf.endTurn (by simpa) (by simpa)
    · rw [engineTurn_of_decode (decode_edv_done hb hg)]
      exact exec_gFin_runs hf.endTurn (by simpa) (by simpa)

theorem timerTurn_runs (hh : s.halt = false) : ∃ t, timerTurn s = .next t := by
  cases hr : s.run with
  | false => simp [timerTurn, decode_timer_sdv, hr, idle]
  | true => rw [timerTurn_of_run hr]; exact exec_tFire_runs (by simpa) (by simpa)

theorem streamTurn_runs (hs : s.Inv) (hh : s.halt = false) : ∃ t, streamTurn s = .next t := by
  cases ht : s.ifFlag && s.ie with
  | false => simp [streamTurn, decode_stream_sdv, ht, idle]
  | true =>
    obtain ⟨hif, hie⟩ := Bool.and_eq_true_iff.1 ht
    rw [streamTurn_of_tick hif hie]
    exact exec_tick_runs (by simpa) (by simpa using ht) hs.endTurn.index.sidx_lt

/-- While a TICK is enabled it takes the place of a turn of the host or of the engine (R197). -/
theorem step_of_held_turn (hh : s.halt = false) (ht : (s.ifFlag && s.ie) = true)
    (hturn : s.turn = .host ∨ s.turn = .engine) : step s = exec .tick s := by
  obtain hturn | hturn := hturn <;> simp [step, takeTurn, hh, hturn, State.tickEnabled_of_live hh, ht]

/-- Settles O49: an enabled TICK runs in the host's and the engine's place (R197); else each agent's turn answers a next
state. -/
theorem liveBlockAlwaysSteps : Obligations.LiveBlockAlwaysSteps := by
  intro s hs hh
  cases hturn : s.turn with
  | timer => rw [step_of_timer_turn hh hturn]; exact timerTurn_runs hh
  | streaming => rw [step_of_streaming_turn hh hturn]; exact streamTurn_runs hs hh
  | host =>
    cases ht : s.ifFlag && s.ie with
    | false => rw [step_of_host_turn hh ht hturn]; exact hostTurn_runs hs ⟨hh, ht⟩
    | true => rw [step_of_held_turn hh ht (.inl hturn)]; exact exec_tick_runs hh ht hs.index.sidx_lt
  | engine =>
    cases ht : s.ifFlag && s.ie with
    | false => rw [step_of_engine_turn hh ht hturn]; exact engineTurn_runs hs ⟨hh, ht⟩
    | true => rw [step_of_held_turn hh ht (.inr hturn)]; exact exec_tick_runs hh ht hs.index.sidx_lt

end Sys2Proof.Machine
end

section
/-! PROOFS. The decoder is the opcode table (R92, R98, R100, R102). An operation's row and operand say what the word's
three fields are, and R102 tests those fields; the dispatch vectors are few enough to look at each. -/

namespace Sys2Proof

variable {w : CmdWord} {i : Instr} {c : Code} {b : CmdWord}

theorem OpRow.matchesCode_iff {r : OpRow} :
    r.matchesCode c = true ↔ c.kind = r.kind ∧ c.bits &&& r.mask = r.pattern := by
  simp [OpRow.matchesCode]

/-! ## Command words -/

/-- The letter of each host command, in upper case (R92). -/
def hostLetter : Instr → Option (BitVec 8)
  | .setf _ => some 0x46#8
  | .setv _ => some 0x56#8
  | .setp _ => some 0x50#8
  | .setd _ => some 0x44#8
  | .lpush _ => some 0x57#8
  | .wsin => some 0x53#8
  | .wtri => some 0x54#8
  | .wsqr => some 0x51#8
  | .warb => some 0x41#8
  | .woff => some 0x4F#8
  | .stop => some 0x58#8
  | .regen => some 0x47#8
  | .lbeg => some 0x4C#8
  | .gStart | .gOff | .gSine | .gSqr | .gTri | .gArb | .gFin | .tFire | .tick => none

/-- The fields of a word that stands for i: i's letter, RSV = 0, and i's operand, or 0 where it takes none. -/
def CmdFields (w : CmdWord) (i : Instr) : Prop :=
  hostLetter i = some (letterOf w) ∧ rsvOf w = 0 ∧ immOf w = i.operand.getD 0

/-- A row with an operand looks at the letter and at RSV (R92). -/
theorem matchesCode_operandRow_iff (m : String) (hb : b &&& 0xDFFF0000 = b) (hr : rsvOf b = 0) :
    OpRow.matchesCode ⟨m, .cmd, b, 0xDFFF0000⟩ (.cmd w) = true ↔ letterOf b = letterOf w ∧ rsvOf w = 0 := by
  rw [eq_comm (a := letterOf b), ← hr, ← and_operandMask_eq_iff, hb, OpRow.matchesCode_iff]
  exact and_iff_right rfl

/-- A row without one looks at IMM16 too (R92, R95). -/
theorem matchesCode_plainRow_iff (m : String) (hb : b &&& 0xDFFFFFFF = b) (hr : rsvOf b = 0) (hi : immOf b = 0) :
    OpRow.matchesCode ⟨m, .cmd, b, 0xDFFFFFFF⟩ (.cmd w) = true ↔
      letterOf b = letterOf w ∧ rsvOf w = 0 ∧ immOf w = 0 := by
  rw [eq_comm (a := letterOf b), ← hr, ← hi, ← and_plainMask_eq_iff, hb, OpRow.matchesCode_iff]
  exact and_iff_right rfl

theorem matches_and_operand_iff_cmdFields (w : CmdWord) (i : Instr) :
    (i.row.matchesCode (.cmd w) = true ∧ ∀ n, i.operand = some n → n = w.setWidth 16) ↔ CmdFields w i := by
  cases i with
  | setf n | setv n | setp n | setd n | lpush n =>
    rw [Instr.row, matchesCode_operandRow_iff _ (by decide) (by decide)]
    simp [CmdFields, hostLetter, letterOf, Instr.operand, immOf_eq_setWidth, and_assoc, eq_comm]
  | wsin | wtri | wsqr | warb | woff | stop | regen | lbeg =>
    rw [Instr.row, matchesCode_plainRow_iff _ (by decide) (by decide) (by decide)]
    simp [CmdFields, hostLetter, letterOf, Instr.operand]
  | _ => simp [CmdFields, hostLetter, OpRow.matchesCode_iff, Instr.row, Code.kind]

/-- R102's procedure accepts a word for what its three fields say. -/
theorem cmdFields_of_decodeCmd (h : decodeCmd w = .ok i) : CmdFields w i := by
  revert h
  fun_cases decodeCmd w <;> rintro ⟨⟩ <;> simp_all +zetaDelta [CmdFields, hostLetter, Instr.operand]

/-- No other host command has the letter, so the procedure's tests before i's own fail. -/
theorem decodeCmd_of_cmdFields (h : CmdFields w i) : decodeCmd w = .ok i := by
  obtain ⟨hletter, hrsv, himm⟩ := h
  cases i <;> simp only [hostLetter, Option.some.injEq, reduceCtorEq] at hletter <;>
    simp [decodeCmd, ← hletter, hrsv, himm, Instr.operand]

/-! ## Dispatch vectors -/

/-- The operations a dispatch vector selects: the engine's, the timer's and the streaming unit's. -/
def dispatchedOps : List Instr := [.gStart, .gOff, .gSine, .gSqr, .gTri, .gArb, .gFin, .tFire, .tick]

theorem operand_of_mem_dispatchedOps : ∀ i ∈ dispatchedOps, i.operand = none := by decide

theorem mem_dispatchedOps_of_decode (hc : c.kind ≠ .cmd) (h : decode c = .ok i) : i ∈ dispatchedOps := by
  revert h
  cases c with
  | cmd w => exact absurd rfl hc
  | edv v => rw [decode]; fun_cases decodeEdv v <;> rintro ⟨⟩ <;> decide
  | timer v => rw [decode]; fun_cases decodeTimer v <;> rintro ⟨⟩; decide
  | stream v => rw [decode]; fun_cases decodeStream v <;> rintro ⟨⟩; decide

theorem mem_dispatchedOps_of_matches (hc : c.kind ≠ .cmd) (h : i.row.matchesCode c = true) : i ∈ dispatchedOps := by
  rw [(OpRow.matchesCode_iff.1 h).1] at hc
  cases i with
  | setf | setv | setp | setd | lpush | wsin | wtri | wsqr | warb | woff | stop | regen | lbeg => exact absurd rfl hc
  | _ => decide

/-- R98's and R100's tests are their rows' patterns: all 64 values of EDV and all 8 of SDV. -/
theorem decode_dispatched_iff (hc : c.kind ≠ .cmd) (hi : i ∈ dispatchedOps) :
    decode c = .ok i ↔ i.row.matchesCode c = true := by
  revert i
  cases c with
  | cmd w => exact absurd rfl hc
  | edv v => revert v; decide
  | timer v => revert v; decide
  | stream v => revert v; decide

/-! ## The obligations -/

/-- Settles O3: for a command word both sides are its three fields; for a dispatch vector the operation is one of nine,
none of which takes an operand. -/
theorem decodeIsTheOpcodeTable : Obligations.DecodeIsTheOpcodeTable := by
  intro c i
  by_cases hc : c.kind = .cmd
  · cases c with
    | cmd w => exact ⟨fun h => (matches_and_operand_iff_cmdFields w i).2 (cmdFields_of_decodeCmd h),
        fun h => decodeCmd_of_cmdFields ((matches_and_operand_iff_cmdFields w i).1 h)⟩
    | _ => cases hc
  · constructor
    · intro h
      have hi := mem_dispatchedOps_of_decode hc h
      exact ⟨(decode_dispatched_iff hc hi).1 h, by rw [operand_of_mem_dispatchedOps i hi]; nofun⟩
    · intro h
      exact (decode_dispatched_iff hc (mem_dispatchedOps_of_matches hc h.1)).2 h.1

open Laws.EncodesToItsRow in
theorem encode_matches_row (i : Instr) : i.row.matchesCode (encode i) = true := by
  suffices Statement i from this.2
  cases i with
  | setf n => exact setf n
  | setv n => exact setv n
  | setp n => exact setp n
  | setd n => exact setd n
  | lpush v => exact lpush v
  | _ => constructor <;> decide

/-- An encoded operand is the code's low 16 bits, which the bases of R92 leave 0. -/
theorem operand_eq_encode_bits {n : Imm16} (h : i.operand = some n) : n = (encode i).bits.setWidth 16 := by
  cases i <;> simp only [Instr.operand, Option.some.injEq, reduceCtorEq] at h <;>
    rw [encode, Code.bits, ← immOf_eq_setWidth, immOf_cmdWord, ← h] <;> exact BitVec.zero_or.symm

/-- Settles O2: the code `encode` writes matches the operation's row and carries its operand, and such a code decodes to
the operation. -/
theorem decodeInvertsEncode : Obligations.DecodeInvertsEncode :=
  fun i => (decodeIsTheOpcodeTable _ i).2 ⟨encode_matches_row i, fun _ => operand_eq_encode_bits⟩

/-- The host commands, with operand n where they take one, in the order of `hostRows`. -/
def hostOps (n : Imm16) : List Instr :=
  [.setf n, .setv n, .setp n, .setd n, .wsin, .wtri, .wsqr, .warb, .woff, .stop, .regen, .lbeg, .lpush n]

theorem map_row_ops (n : Imm16) : (hostOps n ++ dispatchedOps).map Instr.row = opRows := rfl

theorem operand_of_mem_ops {n m : Imm16} (hi : i ∈ hostOps n ++ dispatchedOps) (hm : i.operand = some m) : m = n := by
  revert i
  simp [hostOps, dispatchedOps, Instr.operand, eq_comm]

/-- A code that matches a row of the table decodes to an operation of that row. -/
theorem exists_decode_of_matches {r : OpRow} (hr : r ∈ opRows) (h : r.matchesCode c = true) :
    ∃ i, decode c = .ok i ∧ i.row = r := by
  rw [← map_row_ops (c.bits.setWidth 16)] at hr
  obtain ⟨i, hi, rfl⟩ := List.mem_map.1 hr
  exact ⟨i, (decodeIsTheOpcodeTable c i).2 ⟨h, fun _ => operand_of_mem_ops hi⟩, rfl⟩

/-- Settles O4: the code decodes to an operation of either row, and it decodes to one operation. -/
theorem opcodeRowsAreDisjoint : Obligations.OpcodeRowsAreDisjoint := by
  intro c q r hq hr hqc hrc
  obtain ⟨i, hi, rfl⟩ := exists_decode_of_matches hq hqc
  obtain ⟨j, hj, rfl⟩ := exists_decode_of_matches hr hrc
  rw [hi] at hj
  cases hj
  rfl

/-- CW[29] is the letter's case bit, which 0xDF clears (R93). -/
theorem letterOf_flipCase (w : CmdWord) : letterOf (w ^^^ 0x20000000) = letterOf w := by
  have hcase : ∀ x : BitVec 8, (x ^^^ 0x20) &&& 0xDF = x &&& 0xDF := by decide
  rw [letterOf, BitVec.extractLsb'_xor]
  exact hcase _

theorem rsvOf_flipCase (w : CmdWord) : rsvOf (w ^^^ 0x20000000) = rsvOf w := by
  rw [rsvOf, BitVec.extractLsb'_xor]
  exact BitVec.xor_zero

theorem immOf_flipCase (w : CmdWord) : immOf (w ^^^ 0x20000000) = immOf w := by
  rw [immOf, BitVec.extractLsb'_xor]
  exact BitVec.xor_zero

/-- Settles O5: R102 looks at the three fields alone, and none of them sees bit 29. -/
theorem letterCaseIsIgnored : Obligations.LetterCaseIsIgnored := by
  intro w
  simp only [decode, decodeCmd, letterOf_flipCase, rsvOf_flipCase, immOf_flipCase]

/-- Settles O1: the decoder's answer on each of the eighteen codes. -/
theorem specVectorsDecode : Obligations.SpecVectorsDecode := by
  unfold Obligations.SpecVectorsDecode
  decide

end Sys2Proof
end

section
/-! PROOFS. The dispatch vectors as views of the state (R98, R100), and the turns that run nothing: the engine's guards
as patterns of EDV, waiting turns, a refused type code, and a command word no row matches. -/

namespace Sys2Proof.Machine

variable {s : State} {i : Instr}

/-! ## The bits of EDV and SDV -/

/-- Settles O43: each vector is its flags in order, and DONE is 1 exactly when GIDX = 400. -/
theorem dispatchVectorsShowTheState : Obligations.DispatchVectorsShowTheState := by
  intro s
  have hedv : ∀ (b d p : Bool) (x : BitVec 3), (bit b ++ bit d ++ bit p ++ x).getLsbD 5 = b ∧
      (bit b ++ bit d ++ bit p ++ x).getLsbD 4 = d ∧ (bit b ++ bit d ++ bit p ++ x).getLsbD 3 = p ∧
      (bit b ++ bit d ++ bit p ++ x).extractLsb' 0 3 = x := by decide
  have hsdv : ∀ r f e : Bool, (bit r ++ bit f ++ bit e).getLsbD 2 = r ∧
      (bit r ++ bit f ++ bit e).getLsbD 1 = f ∧ (bit r ++ bit f ++ bit e).getLsbD 0 = e := by decide
  obtain ⟨hgbusy, hdone, hpend, hgtype⟩ := hedv s.gbusy s.done s.pend s.gtype
  exact ⟨hgbusy, by rw [← s.done_iff, ← hdone]; rfl, hpend, hgtype, hsdv s.run s.ifFlag s.ie⟩

/-! ## The engine's guards -/

/-- Row 0b0*1***. -/
theorem gStart_matches_edv : Instr.gStart.row.matchesCode (.edv s.edv) = true ↔ s.gbusy = false ∧ s.pend = true := by
  have hrow : ∀ (b d p : Bool) (x : BitVec 3),
      Instr.gStart.row.matchesCode (.edv (bit b ++ bit d ++ bit p ++ x)) = true ↔ b = false ∧ p = true := by decide
  exact hrow _ _ _ _

/-- Rows 0b10*000 to 0b10*100. -/
theorem generator_matches_edv (hi : i.isGenerator = true) (hg : s.gidx.toNat ≤ 400) :
    i.row.matchesCode (.edv s.edv) = true ↔
      s.gbusy = true ∧ s.gidx.toNat < 400 ∧ generatorCode i = some s.gtype := by
  have hrow : ∀ j ∈ [Instr.gOff, .gSine, .gSqr, .gTri, .gArb], ∀ (b d p : Bool) (x : BitVec 3),
      j.row.matchesCode (.edv (bit b ++ bit d ++ bit p ++ x)) = true ↔
        b = true ∧ d = false ∧ generatorCode j = some x := by decide
  have hdone : s.done = false ↔ s.gidx.toNat < 400 := by
    rw [← Bool.not_eq_true, s.done_iff]; omega
  have hmem : i ∈ [Instr.gOff, .gSine, .gSqr, .gTri, .gArb] := by
    cases i with
    | gOff | gSine | gSqr | gTri | gArb => decide
    | _ => cases hi
  rw [← hdone]
  exact hrow i hmem _ _ _ _

/-- Row 0b11****. -/
theorem gFin_matches_edv :
    Instr.gFin.row.matchesCode (.edv s.edv) = true ↔ s.gbusy = true ∧ s.gidx.toNat = 400 := by
  have hrow : ∀ (b d p : Bool) (x : BitVec 3),
      Instr.gFin.row.matchesCode (.edv (bit b ++ bit d ++ bit p ++ x)) = true ↔ b = true ∧ d = true := by decide
  rw [← s.done_iff]
  exact hrow _ _ _ _

/-- A generator that runs is the one of the latched type. -/
theorem generatorCode_of_exec {t : State} (hi : i.isGenerator = true) (h : exec i s = .next t) :
    generatorCode i = some s.gtype := by
  cases i with
  | gOff | gSine | gSqr | gTri => obtain ⟨-, -, -, hc, -⟩ := exec_plain_next rfl h; exact congrArg some hc.symm
  | gArb => obtain ⟨-, -, -, hc, -⟩ := exec_gArb_next h; exact congrArg some hc.symm
  | _ => cases hi

/-- Settles O30: the guard of an operation that ran is its row's pattern, and an operation whose guard holds runs. -/
theorem engineGuardIsItsPattern : Obligations.EngineGuardIsItsPattern := by
  intro i s hi hhalt htick hg
  have hfree : s.Free := ⟨hhalt, htick⟩
  cases i with
  | gStart =>
    rw [gStart_matches_edv]
    constructor
    · rintro ⟨t, h⟩
      obtain ⟨-, hb, hp, -⟩ := exec_gStart_next h
      exact ⟨hb, hp⟩
    · rintro ⟨hb, hp⟩
      exact exec_gStart_runs hfree hb hp
  | gOff | gSine | gSqr | gTri | gArb =>
    rw [generator_matches_edv rfl hg]
    constructor
    · rintro ⟨t, h⟩
      obtain ⟨-, hb, hlt, -⟩ := exec_generator_next rfl h
      exact ⟨hb, hlt, generatorCode_of_exec rfl h⟩
    · rintro ⟨hb, hlt, hc⟩
      exact exec_generator_runs hc hfree hb hlt
  | gFin =>
    rw [gFin_matches_edv]
    constructor
    · rintro ⟨t, h⟩
      obtain ⟨-, hb, hd, -⟩ := exec_gFin_next h
      exact ⟨hb, hd⟩
    · rintro ⟨hb, hd⟩
      exact exec_gFin_runs hfree hb hd
  | _ => cases hi

/-! ## Turns that run no operation -/

theorem hostTurn_of_no_word (hport : s.port = []) : hostTurn s = idle s := by
  simp [hostTurn, hport]

theorem hostTurn_of_reject {w : CmdWord} {rest : List CmdWord} {e : DecodeReject} (hport : s.port = w :: rest)
    (hdec : decode (.cmd w) = .error e) : hostTurn s = reject .invalidCommand { s.endTurn with port := rest } := by
  simp [hostTurn, hport, hdec]

theorem engineTurn_of_idle (hb : s.gbusy = false) (hp : s.pend = false) : engineTurn s = idle s := by
  simp [engineTurn, decode_edv_idle hb, hp]

theorem timerTurn_of_stopped (hrun : s.run = false) : timerTurn s = idle s := by
  simp [timerTurn, decode_timer_sdv, hrun]

theorem streamTurn_of_no_tick (htick : (s.ifFlag && s.ie) = false) : streamTurn s = idle s := by
  simp [streamTurn, decode_stream_sdv, htick]

/-- Settles O11: each agent's waiting condition makes its turn `idle`. -/
theorem waitingAgentChangesNothing : Obligations.WaitingAgentChangesNothing := by
  intro s hhalt
  refine ⟨fun hturn htick hport => ?_, fun hturn htick hb hp => ?_, fun hturn hrun => ?_, fun hturn htick => ?_⟩
  · rw [step_of_host_turn hhalt htick hturn, hostTurn_of_no_word hport, idle]
  · rw [step_of_engine_turn hhalt htick hturn, engineTurn_of_idle hb hp, idle]
  · rw [step_of_timer_turn hhalt hturn, timerTurn_of_stopped hrun, idle]
  · rw [step_of_streaming_turn hhalt hturn, streamTurn_of_no_tick htick, idle]

/-- EDV 0b10*101 to 0b10*111 (R99). -/
theorem decode_edv_reserved (hb : s.gbusy = true) (hg : s.gidx.toNat ≠ 400) (hc : 5 ≤ s.gtype.toNat) :
    decode (.edv s.edv) = .error .reservedType := by
  have hdec : ∀ (p : Bool) (x : BitVec 3), 5 ≤ x.toNat →
      decodeEdv (bit true ++ bit false ++ bit p ++ x) = .error .reservedType := by decide
  have hd : s.done = false := Bool.eq_false_iff.2 fun h => hg (s.done_iff.1 h)
  rw [decode, State.edv, hb, hd, hdec _ _ hc]

/-- Settles O13: EDV shows a reserved type code, which the engine's turn refuses. -/
theorem reservedTypeIsRefused : Obligations.ReservedTypeIsRefused := by
  intro s hhalt htick hturn hb hg hc
  rw [step_of_engine_turn hhalt htick hturn, engineTurn, decode_edv_reserved hb hg hc]

theorem row_mem_hostRows (hi : i.isHost = true) : i.row ∈ hostRows := by
  cases i with
  | setf | setv | setp | setd | lpush | wsin | wtri | wsqr | warb | woff | stop | regen | lbeg =>
    simp [Instr.row, hostRows]
  | _ => cases hi

/-- A word that matches no row of R92 decodes to no operation (R96): an operation it decoded to would be a host command,
with its row in R92's table. -/
theorem decode_cmd_of_no_row {w : CmdWord} (h : ∀ r ∈ hostRows, (w &&& r.mask) ≠ r.pattern) :
    ∃ e, decode (.cmd w) = .error e := by
  cases hdec : decode (.cmd w) with
  | error e => exact ⟨e, rfl⟩
  | ok i =>
    obtain ⟨-, hmatch⟩ := OpRow.matchesCode_iff.1 ((decodeIsTheOpcodeTable _ i).1 hdec).1
    exact absurd hmatch (h i.row (row_mem_hostRows (isHost_of_decode hdec)))

/-- Settles O6: the word is rejected by the decoder, and the host's turn reports it. -/
theorem unmatchedWordIsInvalidCommand : Obligations.UnmatchedWordIsInvalidCommand := by
  intro s w rest hhalt htick hturn hport hrows
  obtain ⟨e, hdec⟩ := decode_cmd_of_no_row hrows
  rw [step_of_host_turn hhalt htick hturn, hostTurn_of_reject hport hdec, reject]
  simp [State.report, State.emit]

end Sys2Proof.Machine
end

section
/-! PROOFS. The host commands (R130 to R139): what a command's one report says of the rest of the state, and the
parameter commands' effects, branch by branch of each meaning. -/

namespace Sys2Proof.Machine

variable {s t : State} {i : Instr}

/-! ## One report per command (R130) -/

/-- t is some state with s's events and one report after them; only OK and LOAD_COMPLETE report a state other than s. -/
def ReportsOnce (s t : State) : Prop :=
  ∃ u c, t = State.report u c ∧ u.history = s.history ∧ (c = .ok ∨ c = .loadComplete ∨ u = s)

theorem reportsOnce_rejected (s : State) (c : ReportCode) : ReportsOnce s (s.report c) :=
  ⟨s, c, rfl, rfl, .inr (.inr rfl)⟩

theorem reportsOnce_accepted {u : State} (h : u.history = s.history) : ReportsOnce s (u.report .ok) :=
  ⟨u, .ok, rfl, h, .inl rfl⟩

/-- A wave-type command only selects and reports OK. -/
theorem exec_wave_reportsOnce {c : BitVec 3} (hc : waveCode i = some c) (h : exec i s = .next t) :
    s.Free ∧ ReportsOnce s t := by
  obtain ⟨hf, -, rfl⟩ := exec_wave_next hc h
  exact ⟨hf, reportsOnce_accepted rfl⟩

/-- A host command that ran was free to run; it was rejected, or accepted with OK, or ended a load. -/
theorem exec_host_reportsOnce (hi : i.isHost = true) (h : exec i s = .next t) : s.Free ∧ ReportsOnce s t := by
  cases i with
  | setf n =>
    obtain ⟨hf, ⟨-, rfl⟩ | ⟨-, rfl⟩ | ⟨-, -, rfl⟩⟩ := exec_setf_next h
    · exact ⟨hf, reportsOnce_rejected s _⟩
    · exact ⟨hf, reportsOnce_accepted rfl⟩
    · exact ⟨hf, reportsOnce_accepted rfl⟩
  | setv n =>
    obtain ⟨hf, ⟨-, rfl⟩ | ⟨-, rfl⟩ | ⟨-, -, rfl⟩⟩ := exec_setv_next h
    · exact ⟨hf, reportsOnce_rejected s _⟩
    · exact ⟨hf, reportsOnce_accepted rfl⟩
    · exact ⟨hf, reportsOnce_accepted rfl⟩
  | setp n =>
    obtain ⟨hf, ⟨-, rfl⟩ | ⟨-, p, -, rfl⟩⟩ := exec_setp_next h
    · exact ⟨hf, reportsOnce_rejected s _⟩
    · exact ⟨hf, reportsOnce_accepted rfl⟩
  | setd n =>
    obtain ⟨hf, ⟨-, rfl⟩ | ⟨-, rfl⟩⟩ := exec_setd_next h
    · exact ⟨hf, reportsOnce_rejected s _⟩
    · exact ⟨hf, reportsOnce_accepted rfl⟩
  | wsin | wtri | wsqr | warb | woff => exact exec_wave_reportsOnce rfl h
  | stop => obtain ⟨hf, rfl⟩ := exec_stop_next h; exact ⟨hf, reportsOnce_accepted rfl⟩
  | regen => obtain ⟨hf, rfl⟩ := exec_regen_next h; exact ⟨hf, reportsOnce_accepted rfl⟩
  | lbeg => obtain ⟨hf, rfl⟩ := exec_lbeg_next h; exact ⟨hf, reportsOnce_accepted rfl⟩
  | lpush v =>
    obtain ⟨hf, -, rfl⟩ := exec_lpush_next h
    refine ⟨hf, _, _, rfl, rfl, ?_⟩
    split
    · exact .inr (.inl rfl)
    · exact .inl rfl
  | _ => cases hi

/-- Settles O34: a free block runs every host command, and one that ran reported once, over s itself unless accepted. -/
theorem hostCommandReportsOnce : Obligations.HostCommandReportsOnce := by
  intro i s hi hl
  constructor
  · exact ⟨fun ⟨_, h⟩ => (exec_host_reportsOnce hi h).1, fun hf => exec_host_runs hi hf hl⟩
  · intro t h
    obtain ⟨-, u, c, rfl, hu, hc⟩ := exec_host_reportsOnce hi h
    refine ⟨c, congrArg (Event.report c :: ·) hu, fun hok hload => ?_⟩
    obtain rfl : u = s := (hc.resolve_left hok).resolve_left hload
    rfl

/-! ## The parameter commands (R131 to R139) -/

/-- Settles O14: n is above FREQ_MAX, 0, or neither. -/
theorem setfStoresTheFrequency : Obligations.SetfStoresTheFrequency := by
  refine ⟨fun n => decodeInvertsEncode (.setf n), fun n s hhalt htick => ?_⟩
  simp only [exec, execSetf, taskStep_of_free hhalt htick, FREQ_MAX]
  refine ⟨fun hn => ?_, fun h0 => ?_, fun hpos hn => ?_⟩
  · rw [if_pos hn]; rfl
  · rw [if_neg (by omega), if_pos h0, h0]; rfl
  · rw [if_neg (by omega), if_neg (by omega)]; rfl

/-- Settles O15: n is above AMP_MAX, 0, or neither, and the rescaled ceiling fits MAXDUTY. -/
theorem setvRescalesTheDutyCeiling : Obligations.SetvRescalesTheDutyCeiling := by
  refine ⟨fun n => decodeInvertsEncode (.setv n), fun n hn => ⟨dutyCeiling_toNat hn, dutyCeiling_le hn⟩,
    fun n s hhalt htick => ?_⟩
  simp only [exec, execSetv, taskStep_of_free hhalt htick, AMP_MAX]
  refine ⟨fun hn => ?_, fun h0 => ?_, fun hpos hn => ?_⟩
  · rw [if_pos hn]; rfl
  · have hceil : dutyCeiling 0 = 0 := by simp [dutyCeiling]
    rw [if_neg (by omega), if_pos h0, h0, hceil]; rfl
  · rw [if_neg (by omega), if_neg (by omega)]; rfl

/-- Settles O16: n is above PHASE_MAX, is PHASE_MAX and normalised to 0, or is stored as it stands. -/
theorem setpMovesTheTriggerWindow : Obligations.SetpMovesTheTriggerWindow := by
  refine ⟨fun n => decodeInvertsEncode (.setp n), fun n s hhalt htick => ?_⟩
  simp only [exec, execSetp, taskStep_of_free hhalt htick, PHASE_MAX]
  refine ⟨fun hn => ?_, fun hn => ?_, fun hn => ?_⟩
  · rw [if_pos hn]; rfl
  · rw [if_neg (by omega), normalPhase, if_pos hn]; rfl
  · rw [if_neg (by omega), normalPhase, if_neg hn.ne]; rfl

/-- Settles O17: n is above DUTYPCT_MAX or stored. -/
theorem setdStoresTheDuty : Obligations.SetdStoresTheDuty := by
  refine ⟨fun n => decodeInvertsEncode (.setd n), fun n s hhalt htick => ?_⟩
  simp only [exec, execSetd, taskStep_of_free hhalt htick, DUTYPCT_MAX]
  refine ⟨fun hn => ?_, fun hn => ?_⟩
  · rw [if_pos hn]; rfl
  · rw [if_neg (by omega)]; rfl

theorem exec_of_waveCode {c : BitVec 3} (hc : waveCode i = some c) (hf : s.Free) :
    exec i s = .next ((s.selectWave c).report .ok) := by
  cases i with
  | wsin | wtri | wsqr | warb | woff =>
    obtain rfl := Option.some.inj hc
    exact taskStep_of_free hf.1 hf.2 rfl
  | _ => cases hc

/-- Settles O18: each word is its command's encoding, and each command selects its wave code. -/
theorem waveCommandsSelectTheType : Obligations.WaveCommandsSelectTheType := by
  constructor
  · exact ⟨decodeInvertsEncode .wsin, decodeInvertsEncode .wtri, decodeInvertsEncode .wsqr, decodeInvertsEncode .warb,
      decodeInvertsEncode .woff⟩
  · intro s hhalt htick
    have hf : s.Free := ⟨hhalt, htick⟩
    exact ⟨exec_of_waveCode rfl hf, exec_of_waveCode rfl hf, exec_of_waveCode rfl hf, exec_of_waveCode rfl hf,
      exec_of_waveCode rfl hf⟩

end Sys2Proof.Machine
end

section
/-! PROOFS. The control and load commands (R150 to R153): each one's effect, and a whole load of 400 LPUSH words. -/

namespace Sys2Proof.Machine

variable {s t : State} {v : Imm16} {f : Nat → Imm16} {k : Nat}

/-! ## STOP, REGEN and LBEG (R150 to R152) -/

theorem hardwareStep_of_guard_false {own : Bool} {r : Result} (h : s.halt = false) (ho : own = false) :
    hardwareStep s own r = .refused .guardFalse := by
  simp [hardwareStep, h, ho]

theorem exec_tFire_of_stopped (h : s.halt = false) (hr : s.run = false) : exec .tFire s = .refused .guardFalse :=
  hardwareStep_of_guard_false h hr

theorem exec_tick_of_no_tick (h : s.halt = false) (ht : (s.ifFlag && s.ie) = false) :
    exec .tick s = .refused .guardFalse :=
  hardwareStep_of_guard_false h ht

/-- Settles O19: T.FIRE then lacks RUN = 1; STOP ran with no TICK enabled and keeps IF and IE, so none is after it. -/
theorem stopClearsRunOnly : Obligations.StopClearsRunOnly := by
  refine ⟨decodeInvertsEncode .stop, fun s hhalt htick => ⟨_, taskStep_of_free hhalt htick rfl, rfl, ?_, ?_, ?_⟩⟩
  · exact exec_tFire_of_stopped hhalt rfl
  · intro hie
    show s.ifFlag = false
    rwa [hie, Bool.and_true] at htick
  · exact exec_tick_of_no_tick hhalt htick

/-- Settles O20: REGEN has no guard of its own and one assignment. -/
theorem regenSetsPendOnly : Obligations.RegenSetsPendOnly :=
  ⟨decodeInvertsEncode .regen, fun _ hhalt htick => taskStep_of_free hhalt htick rfl⟩

/-- Settles O21: LBEG has no guard of its own and one assignment. -/
theorem lbegResetsTheLoadIndex : Obligations.LbegResetsTheLoadIndex :=
  ⟨decodeInvertsEncode .lbeg, fun _ hhalt htick => taskStep_of_free hhalt htick rfl⟩

/-! ## LPUSH (R153) -/

/-- The state LPUSH v leads to (`exec_lpush_of_lidx_lt`). -/
def State.push (s : State) (v : Imm16) : State :=
  State.report { (s.writeAT s.lidx.toNat v).taintIfBusy with lidx := BitVec.ofNat 9 (nextIndex s.lidx.toNat) }
    (if s.lidx.toNat = 399 then .loadComplete else .ok)

theorem exec_lpush_of_lidx_lt (hf : s.Free) (hl : s.lidx.toNat < 400) (v : Imm16) :
    exec (.lpush v) s = .next (s.push v) := by
  obtain ⟨t, h⟩ := exec_host_runs (i := .lpush v) rfl hf hl
  obtain ⟨-, -, rfl⟩ := exec_lpush_next h
  exact h

@[simp] theorem State.push_atab : (s.push v).atab = s.atab.set s.lidx.toNat v := rfl

/-- The push that writes entry 399 wraps LIDX and reports LOAD_COMPLETE. -/
theorem State.push_of_last (h : s.lidx.toNat = 399) :
    s.push v = { s with atab := (s.push v).atab, taint := s.taint || s.gbusy, lidx := 0,
                        history := .report .loadComplete :: s.history } := by
  have hnext : BitVec.ofNat 9 (nextIndex s.lidx.toNat) = 0 := by rw [h]; decide
  rw [State.push, if_pos h, hnext]; rfl

/-- Any earlier push adds 1 to LIDX and reports OK. -/
theorem State.push_of_lt (h : s.lidx.toNat < 399) :
    s.push v = { s with atab := (s.push v).atab, taint := s.taint || s.gbusy,
                        lidx := BitVec.ofNat 9 (s.lidx.toNat + 1), history := .report .ok :: s.history } := by
  have hnext : nextIndex s.lidx.toNat = s.lidx.toNat + 1 := Nat.mod_eq_of_lt (show s.lidx.toNat + 1 < 400 by omega)
  rw [State.push, if_neg h.ne, hnext]; rfl

/-- Settles O22: one entry is written, and LIDX is either the last index or below it. -/
theorem lpushCommitsOneSample : Obligations.LpushCommitsOneSample := by
  refine ⟨fun v => decodeInvertsEncode (.lpush v), fun v s hhalt htick hl =>
    ⟨s.push v, exec_lpush_of_lidx_lt ⟨hhalt, htick⟩ hl v, ?_, fun a ha => ?_, State.push_of_last, State.push_of_lt⟩⟩
  · exact s.atab.get?_set_same _ v
  · exact s.atab.get?_set_other v ha

/-! ## A load of 400 samples (R153, R194) -/

/-- The host's turn with an LPUSH word at the head of the port. -/
theorem step_of_lpush_word {rest : List CmdWord} {q : List Agent} (hf : s.Free) (hl : s.lidx.toNat < 400)
    (hport : s.port = (0x57000000#32 ||| v.setWidth 32) :: rest) (hq : s.turns = .host :: q) :
    step s = .next (State.push { s with turns := q, port := rest } v) := by
  rw [step_of_host_turn hf.1 hf.2 (s.turn_of_cons hq),
    hostTurn_of_decode hport (decodeInvertsEncode (.lpush v)), s.endTurn_of_cons hq]
  exact exec_lpush_of_lidx_lt (s := { s with turns := q, port := rest }) hf hl v

/-- t is s after the first k samples of f, the load not yet complete. -/
structure LoadedUpTo (s : State) (f : Nat → Imm16) (k : Nat) (t : State) : Prop where
  free : t.Free
  lidx : t.lidx.toNat = k
  atab : ∀ i, i < k → t.atab.get? i = some (f i)
  wtab : t.wtab = s.wtab
  history : t.history = List.replicate k (.report .ok) ++ s.history

/-- The load reads neither the schedule nor the port. -/
theorem LoadedUpTo.with_turns_port (h : LoadedUpTo s f k t) (q : List Agent) (rest : List CmdWord) :
    LoadedUpTo s f k { t with turns := q, port := rest } :=
  ⟨h.free, h.lidx, h.atab, h.wtab, h.history⟩

/-- The push of the next sample writes entry k and keeps the entries before it. -/
theorem LoadedUpTo.atab_push (h : LoadedUpTo s f k t) (i : Nat) (hi : i < k + 1) :
    (t.push (f k)).atab.get? i = some (f i) := by
  rw [State.push_atab, Memory.get?_set, h.lidx]
  split
  next hik => rw [hik]
  next hik => exact h.atab i (by omega)

theorem LoadedUpTo.push (h : LoadedUpTo s f k t) (hk : k < 399) : LoadedUpTo s f (k + 1) (t.push (f k)) := by
  have hlt : t.lidx.toNat < 399 := h.lidx ▸ hk
  refine ⟨h.free, ?_, h.atab_push, h.wtab, ?_⟩
  · rw [State.push_of_lt hlt, ← h.lidx]
    exact gidx_succ (by omega)
  · rw [State.push_of_lt hlt]
    exact congrArg (Event.report .ok :: ·) h.history

/-- The push of sample 399 completes the load. -/
theorem LoadedUpTo.push_last (h : LoadedUpTo s f 399 t) :
    (t.push v).lidx = 0 ∧
      (t.push v).history = .report .loadComplete :: (List.replicate 399 (.report .ok) ++ s.history) := by
  rw [State.push_of_last h.lidx]
  exact ⟨rfl, congrArg (Event.report .loadComplete :: ·) h.history⟩

/-- From LIDX = 0, k words that are not yet a whole load bring the load to k. -/
theorem run_lpush_words (hk : k < 400) (hf : s.Free) (hl : s.lidx = 0) {rest : List CmdWord} {q : List Agent}
    (hport : s.port = (List.range k).map (fun i => 0x57000000#32 ||| (f i).setWidth 32) ++ rest)
    (hq : s.turns = List.replicate k .host ++ q) :
    ∃ t, Host.Core.run core k s = .next t ∧ LoadedUpTo s f k t ∧ t.port = rest ∧ t.turns = q := by
  induction k generalizing rest q with
  | zero => exact ⟨s, rfl, ⟨hf, by rw [hl]; rfl, fun i hi => absurd hi i.not_lt_zero, rfl, rfl⟩, hport, hq⟩
  | succ k ih =>
    rw [List.range_succ, List.map_append, List.append_assoc] at hport
    rw [List.replicate_succ', List.append_assoc] at hq
    obtain ⟨t, hrun, ht, htport, htq⟩ := ih (by omega) hport hq
    have hstep := step_of_lpush_word ht.free (by rw [ht.lidx]; omega) htport htq
    exact ⟨_, (run_add_next core k 1 hrun).trans (run_succ_next core 0 hstep),
      (ht.with_turns_port q rest).push (by omega), rfl, rfl⟩

/-- Settles O55: 399 words load the entries below 399, each with its OK, and the last one completes the load. -/
theorem loadFillsTheArbitraryTable : Obligations.LoadFillsTheArbitraryTable := by
  intro s f rest q hhalt htick hl hport hq
  rw [List.range_succ, List.map_append, List.append_assoc] at hport
  rw [List.replicate_succ', List.append_assoc] at hq
  obtain ⟨t, hrun, ht, htport, htq⟩ := run_lpush_words (by decide) ⟨hhalt, htick⟩ hl hport hq
  have hstep := step_of_lpush_word ht.free (by rw [ht.lidx]; decide) htport htq
  have hu := ht.with_turns_port q rest
  obtain ⟨hlidx, hhistory⟩ := hu.push_last (v := f 399)
  exact ⟨_, (run_add_next core 399 1 hrun).trans (run_succ_next core 0 hstep), hu.atab_push, hlidx, rfl, rfl, ht.wtab,
    hhistory⟩

end Sys2Proof.Machine
end

section
/-! PROOFS. The engine's operations one by one (R161 to R168): G.START's latch, what each generator stores, and G.FIN's
two ends. -/

namespace Sys2Proof.Machine

variable {s t : State} {i : Instr}

/-! ## G.START and G.FIN (R161, R168) -/

/-- Settles O23: the guard holds, and the effect is R161's five assignments. -/
theorem gStartLatchesTheWaveType : Obligations.GStartLatchesTheWaveType :=
  fun _ hhalt htick hb hp => taskStep_of_free hhalt htick (by rw [hb, hp]; rfl)

/-- The requested sample-clock frequency fits SCLK_FREQ. -/
theorem toNat_sclkFreq {f : Nat} (h : f ≤ 300) : (BitVec.ofNat 17 (400 * f)).toNat = 400 * f := by
  rw [BitVec.toNat_ofNat]; omega

/-- Settles O29: at GIDX = 400 G.FIN runs, and what it does is one of R168's two ends. -/
theorem gFinConfiguresAndStarts : Obligations.GFinConfiguresAndStarts := by
  refine ⟨sclkRepresentable_zero, fun s hhalt htick hb hg => ⟨BitVec.ofNat 17 _, toNat_sclkFreq, ?_⟩⟩
  obtain ⟨t, h⟩ := exec_gFin_runs ⟨hhalt, htick⟩ hb hg
  obtain ⟨-, -, -, ⟨hf, rfl⟩ | ⟨hf, rfl⟩⟩ := exec_gFin_next h
  · rw [h, if_pos hf]
  · rw [h, if_neg (Bool.eq_false_iff.1 hf)]; rfl

/-! ## What a generator stores (R163 to R167, R170) -/

/-- The generators' tail stores the computed value, or a fresh draw in a tainted pass. -/
theorem State.putSample_stores (s : State) (v : Nat) :
    (s.taint = false → StoredSample s (s.putSample v) (BitVec.ofNat 16 v) 0) ∧
      (s.taint = true → StoredSample s (s.putSample v) (Config.any16 s.draws) 1) := by
  constructor
  · intro ht
    rw [State.putSample_clean ht]
    exact ⟨Memory.get?_set_same _ _ _, fun _ => Memory.get?_set_other _ _, rfl⟩
  · intro ht
    rw [State.putSample_tainted ht]
    exact ⟨Memory.get?_set_same _ _ _, fun _ => Memory.get?_set_other _ _, rfl⟩

/-- A value drawn before the store counts with the draws of the store. -/
theorem StoredSample.of_drawn {v : Sample} {k : Nat} (h : StoredSample { s with draws := s.draws + 1 } t v k) :
    StoredSample s t v (k + 1) := by
  obtain ⟨hv, hother, ht⟩ := h
  refine ⟨hv, hother, ht.trans ?_⟩
  rw [Nat.add_assoc, Nat.add_comm 1 k]

/-- In a pass of its type, a generator that reads no table stores what it computes, or a draw. -/
theorem exec_plain_stores {c : BitVec 3} {v : Nat} (hp : plainSample i s = some (c, v)) (hi : generatorCode i = some c)
    (hf : s.Free) (hb : s.gbusy = true) (hg : s.gidx.toNat < 400) (hc : s.gtype = c) :
    ∃ t, exec i s = .next t ∧ (s.taint = false → StoredSample s t (BitVec.ofNat 16 v) 0) ∧
      (s.taint = true → StoredSample s t (Config.any16 s.draws) 1) := by
  obtain ⟨t, h⟩ := exec_generator_runs (hc ▸ hi) hf hb hg
  obtain ⟨-, -, -, -, rfl⟩ := exec_plain_next hp h
  exact ⟨_, h, s.putSample_stores v⟩

/-- A value no greater than some sample fits an entry. -/
theorem ofNat_toNat_of_le_sample {v : Nat} {m : Sample} (h : v ≤ m.toNat) : (BitVec.ofNat 16 v).toNat = v := by
  have := m.isLt
  rw [BitVec.toNat_ofNat]; omega

/-- Settles O24: G.OFF computes the value 0. -/
theorem gOffStoresZero : Obligations.GOffStoresZero :=
  fun _ hhalt htick hb hg hc => exec_plain_stores rfl rfl ⟨hhalt, htick⟩ hb (Nat.lt_succ_of_le hg) hc

/-- Settles O25: G.SINE stores `sampleSine`, which is R164 over the reals and at most MAXDUTY. -/
theorem gSineStoresTheRoundedRealSine : Obligations.GSineStoresTheRoundedRealSine := by
  intro s hhalt htick hb hg hc
  have hlt : s.gidx.toNat < 400 := Nat.lt_succ_of_le hg
  have hm : s.maxduty.toNat ≤ 65535 := Nat.le_of_lt_succ s.maxduty.isLt
  have hle : sampleSine s.maxduty.toNat s.gidx.toNat ≤ s.maxduty.toNat := sampleSine_le hlt
  obtain ⟨t, h, hclean, hdraw⟩ := exec_plain_stores (i := .gSine) rfl rfl ⟨hhalt, htick⟩ hb hlt hc
  refine ⟨t, h, fun ht => ⟨_, ?_, ?_, hclean ht⟩, hdraw⟩
  · rw [ofNat_toNat_of_le_sample hle]; exact sampleSine_eq_real hm hlt
  · rwa [ofNat_toNat_of_le_sample hle]

/-- Settles O26: the two branches of `sampleSquare` are MAXDUTY and 0. -/
theorem gSqrStoresTheSquare : Obligations.GSqrStoresTheSquare := by
  intro s hhalt htick hb hg hc
  obtain ⟨t, h, hclean, hdraw⟩ :=
    exec_plain_stores (i := .gSqr) rfl rfl ⟨hhalt, htick⟩ hb (Nat.lt_succ_of_le hg) hc
  have hv : BitVec.ofNat 16 (sampleSquare s.maxduty.toNat s.duty.toNat s.gidx.toNat) =
      if s.gidx.toNat < s.duty.toNat * 400 / 100 then s.maxduty else 0 := by
    rw [sampleSquare, apply_ite (BitVec.ofNat 16), BitVec.ofNat_toNat, BitVec.setWidth_eq]; rfl
  exact ⟨t, h, fun ht => hv ▸ hclean ht, hdraw⟩

/-- The rising ramp (R166). -/
theorem sampleTriangle_of_lt {m duty j : Nat} (h : j < dutyIndex duty) :
    sampleTriangle m duty j = j * m / dutyIndex duty := if_pos h

/-- The falling ramp (R166). -/
theorem sampleTriangle_of_ge {m duty j : Nat} (h : dutyIndex duty ≤ j) :
    sampleTriangle m duty j = m - m * (j - dutyIndex duty) / (400 - dutyIndex duty) := if_neg h.not_gt

/-- On the table the falling ramp takes away a part `(j - di) / (400 - di) < 1` of MAXDUTY, so nothing is cut off. -/
theorem sampleTriangle_add_fall {m duty j : Nat} (h : dutyIndex duty ≤ j) (hj : j < 400) :
    sampleTriangle m duty j + m * (j - dutyIndex duty) / (400 - dutyIndex duty) = m := by
  rw [sampleTriangle_of_ge h]
  refine Nat.sub_add_cancel (Nat.div_le_of_le_mul ?_)
  rw [Nat.mul_comm (400 - _)]
  exact Nat.mul_le_mul_left m (by omega)

/-- Settles O27: GIDX is on one of `sampleTriangle`'s two ramps, and the value, at most MAXDUTY, fits the entry. -/
theorem gTriStoresTheTriangle : Obligations.GTriStoresTheTriangle := by
  intro s hhalt htick hb hg hc
  have hlt : s.gidx.toNat < 400 := Nat.lt_succ_of_le hg
  obtain ⟨t, h, hclean, hdraw⟩ := exec_plain_stores (i := .gTri) rfl rfl ⟨hhalt, htick⟩ hb hlt hc
  refine ⟨t, h, fun ht => ⟨_, hclean ht, fun hrise => ?_, fun hfall => ?_⟩, hdraw⟩ <;>
    rw [ofNat_toNat_of_le_sample (sampleTriangle_le ..)]
  · exact sampleTriangle_of_lt hrise
  · exact sampleTriangle_add_fall hfall hlt

/-- With AMPL in its range the rescaled entry is no greater than AT's. -/
theorem sampleArbitrary_le {a ampl : Nat} (h : ampl ≤ 33) : sampleArbitrary a ampl ≤ a :=
  Nat.div_le_of_le_mul (by rw [Nat.mul_comm 33]; exact Nat.mul_le_mul_left a h)

/-- Settles O28: the read of AT gives the entry or draws; the tail then stores it rescaled, or a further draw. -/
theorem gArbRescalesTheLoadedEntry : Obligations.GArbRescalesTheLoadedEntry := by
  intro s hhalt htick hb hg hc hampl
  obtain ⟨t, h⟩ :=
    exec_generator_runs (i := .gArb) (by rw [hc]; rfl) ⟨hhalt, htick⟩ hb (Nat.lt_succ_of_le hg)
  obtain ⟨-, -, -, -, rfl⟩ := exec_gArb_next h
  have hfits : ∀ a : Sample,
      (BitVec.ofNat 16 (sampleArbitrary a.toNat s.ampl.toNat)).toNat = a.toNat * s.ampl.toNat / 33 :=
    fun a => ofNat_toNat_of_le_sample (sampleArbitrary_le hampl)
  refine ⟨_, h, fun a ha => ?_, fun hnone => ?_⟩
  · have hread : s.readAT s.gidx.toNat = (a, s) := by rw [State.readAT, ha]
    obtain ⟨hclean, hdraw⟩ := s.putSample_stores (sampleArbitrary a.toNat s.ampl.toNat)
    rw [hread]
    exact ⟨fun ht => ⟨_, hfits a, hclean ht⟩, hdraw⟩
  · have hread : s.readAT s.gidx.toNat = s.draw := by rw [State.readAT, hnone]
    obtain ⟨hclean, hdraw⟩ := s.draw.2.putSample_stores (sampleArbitrary s.draw.1.toNat s.ampl.toNat)
    rw [hread]
    exact ⟨fun ht => ⟨_, hfits s.draw.1, (hclean ht).of_drawn⟩, fun ht => (hdraw ht).of_drawn⟩

end Sys2Proof.Machine
end

section
/-! PROOFS. The taint rule (R170) and the laws of the square and triangle tables (R165, R166). -/

namespace Sys2Proof.Machine

variable {s t : State} {i : Instr}

/-! ## TAINT (R35, R161, R170) -/

/-- A command of R170's list that ran was not rejected, so it made the taint clause's assignment. -/
theorem exec_taint_of_breaksPass (hi : i.breaksPass = true) (h : exec i s = .next t) :
    t.taint = (s.taint || s.gbusy) := by
  cases i with
  | setf n =>
    have hn : n.toNat = 0 := eq_of_beq hi
    obtain ⟨-, ⟨hrej, -⟩ | ⟨-, rfl⟩ | ⟨hpos, -, -⟩⟩ := exec_setf_next h
    · omega
    · rfl
    · omega
  | setv n =>
    have hn : n.toNat ≤ 33 := of_decide_eq_true hi
    obtain ⟨-, ⟨hrej, -⟩ | ⟨-, rfl⟩ | ⟨-, -, rfl⟩⟩ := exec_setv_next h
    · omega
    · rfl
    · rfl
  | setd n =>
    have hn : n.toNat ≤ 100 := of_decide_eq_true hi
    obtain ⟨-, ⟨hrej, -⟩ | ⟨-, rfl⟩⟩ := exec_setd_next h
    · omega
    · rfl
  | wsin | wtri | wsqr | warb | woff => obtain ⟨-, -, rfl⟩ := exec_wave_next rfl h; rfl
  | lpush v => obtain ⟨-, -, rfl⟩ := exec_lpush_next h; rfl
  | _ => cases hi

/-- Settles O35: G.START clears TAINT, a command of the list sets it in a pass, any other operation leaves it alone. -/
theorem taintFollowsItsRule : Obligations.TaintFollowsItsRule := by
  intro i s t h
  by_cases hs : i = .gStart
  · subst hs
    obtain ⟨-, -, -, rfl⟩ := exec_gStart_next h
    rfl
  · rw [if_neg hs]
    cases hi : i.breaksPass with
    | true => rw [exec_taint_of_breaksPass hi h, Bool.and_true]
    | false => rw [(effect_of_exec h).taint_eq hs hi, Bool.and_false, Bool.or_false]

/-! ## The square table (R165) -/

theorem dutyIndex_le {duty : Nat} (h : duty ≤ 100) : dutyIndex duty ≤ 400 := by
  rw [dutyIndex_eq]; omega

theorem sampleSquare_beq_max {m : Nat} (hm : 0 < m) (duty j : Nat) :
    (sampleSquare m duty j == m) = decide (j < dutyIndex duty) := by
  rw [sampleSquare]
  split
  · next h => simp [h]
  · next h => simp [h, hm.ne]

theorem sampleSquare_beq_zero {m : Nat} (hm : 0 < m) (duty j : Nat) :
    (sampleSquare m duty j == 0) = decide (dutyIndex duty ≤ j) := by
  rw [sampleSquare]
  split
  · next h => simp [h.not_ge, hm.ne']
  · next h => simp [not_lt.1 h]

/-- Settles O56: the entries at MAXDUTY are those of the interval [0, di), the entries at 0 those of [di, 400). -/
theorem squareHasDutyIndexHighEntries : Obligations.SquareHasDutyIndexHighEntries := by
  intro m duty hm hd
  simp only [sampleSquare_beq_max hm, sampleSquare_beq_zero hm, ← List.Ico.zero_bot, List.Ico.filter_lt,
    List.Ico.filter_le, List.Ico.length]
  exact ⟨(Nat.sub_zero _).trans (Nat.min_eq_right (dutyIndex_le hd)), by rw [Nat.max_eq_right (Nat.zero_le _)]; rfl⟩

/-! ## The triangle table (R166) -/

/-- Settles O57: the quotient of each ramp grows with the index, and on the falling ramp it is subtracted. -/
theorem triangleRisesThenFalls : Obligations.TriangleRisesThenFalls := by
  intro m duty _
  refine ⟨fun j k hjk hk => ?_, fun j k hj hjk hk => ?_, fun hpos => ?_, fun _ => ?_,
    fun j _ => sampleTriangle_le m duty j⟩
  · rw [sampleTriangle_of_lt (hjk.trans_lt hk), sampleTriangle_of_lt hk]
    exact Nat.div_le_div_right (Nat.mul_le_mul_right m hjk)
  · rw [sampleTriangle_of_ge (hj.trans hjk), sampleTriangle_of_ge hj]
    exact Nat.sub_le_sub_left (Nat.div_le_div_right (Nat.mul_le_mul_left m (Nat.sub_le_sub_right hjk _))) m
  · rw [sampleTriangle_of_lt hpos, Nat.zero_mul, Nat.zero_div]
  · exact (sampleTriangle_of_ge (Nat.le_refl (dutyIndex duty))).trans (by simp)

end Sys2Proof.Machine
end

section
/-! PROOFS. A whole pass (R160, R171): the steps of the engine moving alone, and the table any clean pass leaves. -/

namespace Sys2Proof.Machine

variable {s t : State} {i : Instr}

/-! ## The table at the end of a pass (R71, R171) -/

/-- Every entry of WT holds what its law gives, unless the pass was tainted. -/
def State.CleanTable (s : State) : Prop :=
  s.taint = false → ∀ j, j < 400 → ∀ v, s.entryLaw j = some v → s.wtab.get? j = some (BitVec.ofNat 16 v)

/-- The law of a type that is not reserved has a value wherever AT has been written. -/
theorem exists_entryLaw {j : Nat} (hc : s.gtype.toNat ≤ 4) (ha : s.gtype = 4 → (s.atab.get? j).isSome = true) :
    ∃ v, s.entryLaw j = some v := by
  have hcodes : ∀ c : BitVec 3, c.toNat ≤ 4 → c = 0 ∨ c = 1 ∨ c = 2 ∨ c = 3 ∨ c = 4 := by decide
  refine Option.isSome_iff_exists.1 ?_
  obtain h | h | h | h | h := hcodes s.gtype hc
  case inr.inr.inr.inr => rw [entryLaw_arbitrary h, Option.isSome_map]; exact ha h
  all_goals simp [State.entryLaw, h]

/-- G.FIN ends the pass and otherwise writes the clock's registers and the history alone. -/
theorem exec_gFin_state (h : exec .gFin s = .next t) : ∃ f c e r es, t =
    { s with sclkFreq := f, cfgerr := c, ie := e, run := r, history := es, gbusy := false } := by
  obtain ⟨-, -, -, ⟨-, rfl⟩ | ⟨-, rfl⟩⟩ := exec_gFin_next h
  · exact ⟨_, _, _, _, s.history, rfl⟩
  · exact ⟨s.sclkFreq, _, s.ie, s.run, _, rfl⟩

/-- Only G.FIN ends a pass, and it runs at GIDX = 400, where `CleanPrefix` speaks of the whole table. -/
theorem exec_ends_pass (hs : s.CleanPrefix) (hb : s.gbusy = true) (h : exec i s = .next t) (ht : t.gbusy = false) :
    t.CleanTable := by
  by_cases hf : i = .gFin
  · subst hf
    obtain ⟨-, -, hg, -⟩ := exec_gFin_next h
    obtain ⟨f, c, e, r, es, rfl⟩ := exec_gFin_state h
    exact fun hclean j hj v hv => hs hb hclean j (hg.symm ▸ hj) v hv
  · have hbusy : t.gbusy = true := by
      by_cases hstart : i = .gStart
      · subst hstart
        obtain ⟨-, -, -, rfl⟩ := exec_gStart_next h
        rfl
      · rw [(effect_of_exec h).gbusy_eq hstart hf, hb]
    rw [ht] at hbusy
    cases hbusy

theorem step_ends_pass (hs : s.CleanPrefix) (hb : s.gbusy = true) (h : step s = .next t) (ht : t.gbusy = false) :
    t.CleanTable := by
  have hb' : s.endTurn.gbusy = true := s.endTurn_gbusy.trans hb
  obtain ⟨-, ⟨i, h⟩ | ⟨i, h⟩ | ⟨i, p, h⟩ | ⟨p, rfl⟩ | rfl⟩ := step_cases h
  · exact exec_ends_pass hs hb h ht
  · exact exec_ends_pass hs.endTurn hb' h ht
  · exact exec_ends_pass (s := { s.endTurn with port := p }) hs.endTurn hb' h ht
  · exact absurd ht (hb'.symm ▸ nofun)
  · exact absurd ht (hb'.symm ▸ nofun)

/-- What every step keeps, every run keeps. -/
theorem run_keeps (M : Host.Core) {P : M.State → Prop} (hstep : ∀ a b, P a → M.step a = .next b → P b) {n : Nat}
    {u v : M.State} (hu : P u) (h : M.run n u = .next v) : P v := by
  induction n generalizing u with
  | zero => cases h; exact hu
  | succ n ih =>
    cases hs : M.step u with
    | next w => rw [run_succ_next M n hs] at h; exact ih (hstep u w hu hs) h
    | fault r => simp [Host.Core.run, hs] at h
    | refused r => simp [Host.Core.run, hs] at h

/-- A pass, whatever steps it was interleaved with, leaves the table its laws give unless it was tainted. -/
theorem run_pass_cleanTable {u : State} {n : Nat} (hs : s.CleanPrefix) (hrun : Host.Core.run core n s = .next t)
    (hb : t.gbusy = true) (hstep : step t = .next u) (hu : u.gbusy = false) : u.CleanTable :=
  step_ends_pass (run_keeps core everyStepKeepsTheCleanPrefix hs hrun) hb hstep hu

/-- Settles O53: both tables are what the laws give, and the laws read the five inputs that agree. -/
theorem tableDependsOnItsInputsAlone : Obligations.TableDependsOnItsInputsAlone := by
  intro s t u s' t' u' n n' hs hrun hb hstep hu hclean hs' hrun' hb' hstep' hu' hclean' hc ha h1 h2 h3 h4 h5 j hj
  obtain ⟨v, hv⟩ := exists_entryLaw hc fun h => ha h j hj
  have hv' : u'.entryLaw j = some v := (State.entryLaw_congr h1 h2 h3 h4 h5 j).trans hv
  exact ⟨BitVec.ofNat 16 v, run_pass_cleanTable hs hrun hb hstep hu hclean j hj v hv,
    run_pass_cleanTable hs' hrun' hb' hstep' hu' hclean' j hj v hv'⟩

/-! ## The engine moving alone (R160) -/

theorem isGenerator_of_generatorCode {c : BitVec 3} (h : generatorCode i = some c) : i.isGenerator = true := by
  cases i with
  | gOff | gSine | gSqr | gTri | gArb => rfl
  | _ => cases h

/-- Where the law has a value, an untainted generator stores it and draws nothing. -/
theorem exec_generator_stores_law {v : Nat} (hi : i.isGenerator = true) (ht : s.taint = false)
    (hv : s.entryLaw s.gidx.toNat = some v) (h : exec i s = .next t) : StoredSample s t (BitVec.ofNat 16 v) 0 := by
  obtain rfl | ⟨c, v', hp⟩ := isGenerator_cases (s := s) hi
  · obtain ⟨-, -, -, hc, rfl⟩ := exec_gArb_next h
    rw [entryLaw_arbitrary hc, Option.map_eq_some_iff] at hv
    obtain ⟨a, ha, rfl⟩ := hv
    rw [State.readAT, ha]
    exact (s.putSample_stores _).1 ht
  · obtain ⟨-, -, -, hc, rfl⟩ := exec_plain_next hp h
    obtain rfl : v' = v := Option.some.inj ((entryLaw_of_plainSample hp hc).symm.trans hv)
    exact (s.putSample_stores _).1 ht

/-- s is in an untainted pass whose law has a value at every entry, and the engine is free to move. -/
structure State.Generating (s : State) : Prop where
  free : s.Free
  gbusy : s.gbusy = true
  taint : s.taint = false
  gtype : s.gtype.toNat ≤ 4
  law : ∀ j, j < 400 → ∃ v, s.entryLaw j = some v

/-- The law reads neither WT, GIDX nor the schedule. -/
theorem State.Generating.with_table (hs : s.Generating) (w : Memory) (g : BitVec 9) (q : List Agent) :
    State.Generating { s with wtab := w, gidx := g, turns := q } :=
  ⟨hs.free, hs.gbusy, hs.taint, hs.gtype, hs.law⟩

/-- The engine's turn in such a pass, with entries left to write. -/
theorem step_of_generating (hs : s.Generating) (hg : s.gidx.toNat < 400) {q : List Agent}
    (hq : s.turns = .engine :: q) :
    ∃ w, step s = .next { s with wtab := w, gidx := BitVec.ofNat 9 (s.gidx.toNat + 1), turns := q } := by
  obtain ⟨i, hdec, hi⟩ := decode_edv_generating hs.gbusy hg hs.gtype
  obtain ⟨t, h⟩ := exec_generator_runs (s := { s with turns := q }) hi hs.free hs.gbusy hg
  obtain ⟨v, hv⟩ := hs.law _ hg
  obtain ⟨-, -, ht⟩ :=
    exec_generator_stores_law (s := { s with turns := q }) (isGenerator_of_generatorCode hi) hs.taint hv h
  exact ⟨t.wtab, (step_engine hs.free.1 hs.free.2 hq hdec).trans (h.trans (congrArg Host.Outcome.next ht))⟩

/-- k turns of the engine at the start of a pass bring GIDX to k and write WT alone. -/
theorem run_generating {k : Nat} (hk : k ≤ 400) (hs : s.Generating) (hg : s.gidx = 0) {q : List Agent}
    (hq : s.turns = List.replicate k .engine ++ q) :
    ∃ w, Host.Core.run core k s = .next { s with wtab := w, gidx := BitVec.ofNat 9 k, turns := q } := by
  induction k generalizing q with
  | zero =>
    obtain rfl : s.turns = q := hq
    have hzero : s = { s with gidx := 0 } := by rw [← hg]
    exact ⟨s.wtab, congrArg Host.Outcome.next hzero⟩
  | succ k ih =>
    rw [List.replicate_succ', List.append_assoc] at hq
    obtain ⟨w, hrun⟩ := ih (by omega) hq
    have hidx : (BitVec.ofNat 9 k).toNat = k := by rw [BitVec.toNat_ofNat]; omega
    obtain ⟨w', hstep⟩ :=
      step_of_generating (hs.with_table w (BitVec.ofNat 9 k) (.engine :: q)) (by rw [hidx]; omega) rfl
    rw [hidx] at hstep
    exact ⟨w', (run_add_next core k 1 hrun).trans (run_succ_next core 0 hstep)⟩

/-- s in the pass G.START begins there (`step_of_notified`): WT as w, GIDX as g, the schedule as q. -/
def State.inPass (s : State) (w : Memory) (g : BitVec 9) (q : List Agent) : State :=
  { s with pend := false, gbusy := true, gidx := g, gtype := s.wtype, taint := false, wtab := w, turns := q }

section NotifiedIdle

variable (hf : s.Free) (hb : s.gbusy = false) (hp : s.pend = true) (hw : s.wtype.toNat ≤ 4)
  (ha : s.wtype = 4 → ∀ j, j < 400 → (s.atab.get? j).isSome = true)

include hf hb hp in
/-- The engine's turn in a notified idle state is G.START. -/
theorem step_of_notified {q : List Agent} (hq : s.turns = .engine :: q) : step s = .next (s.inPass s.wtab 0 q) := by
  have hdec : decode (.edv s.edv) = .ok .gStart := by rw [decode_edv_idle hb, hp]; rfl
  exact (step_engine hf.1 hf.2 hq hdec).trans (gStartLatchesTheWaveType _ hf.1 hf.2 hb hp)

include hf hw ha in
theorem State.inPass_generating (w : Memory) (g : BitVec 9) (q : List Agent) : (s.inPass w g q).Generating :=
  ⟨hf, rfl, rfl, hw, fun j hj => exists_entryLaw hw fun h => ha h j hj⟩

include hf in
/-- The engine's turn at the end of the pass is G.FIN. -/
theorem step_of_inPass_done (w : Memory) (q : List Agent) :
    ∃ u, exec .gFin (s.inPass w 400 q) = .next u ∧ step (s.inPass w 400 (.engine :: q)) = .next u := by
  obtain ⟨u, hfin⟩ := exec_gFin_runs (s := s.inPass w 400 q) hf rfl rfl
  have hstep := step_engine (s := s.inPass w 400 (.engine :: q)) hf.1 hf.2 rfl (decode_edv_done rfl rfl)
  exact ⟨u, hfin, hstep.trans hfin⟩

include hf hb hp hw ha in
/-- 401 turns of the engine from a notified idle state write the table. -/
theorem run_to_done {q : List Agent} (hq : s.turns = List.replicate 401 .engine ++ q) :
    ∃ w, Host.Core.run core 401 s = .next (s.inPass w 400 q) := by
  rw [List.replicate_succ, List.cons_append] at hq
  have hgen := State.inPass_generating hf hw ha s.wtab 0 (List.replicate 400 .engine ++ q)
  obtain ⟨w, hrun⟩ := run_generating (Nat.le_refl 400) hgen rfl rfl
  exact ⟨w, (run_succ_next core 400 (step_of_notified hf hb hp hq)).trans hrun⟩

end NotifiedIdle

/-- Settles O52: G.START, the generators and G.FIN write what the statement names, and the run is a clean pass. -/
theorem passTakes402EngineSteps : Obligations.PassTakes402EngineSteps := by
  intro s q hhalt hb hp _ hif hw ha hq
  have hf : s.Free := ⟨hhalt, by rw [hif, Bool.false_and]⟩
  have hclean : s.CleanPrefix := fun hbusy => absurd (hb.symm.trans hbusy) nofun
  rw [List.replicate_succ', List.append_assoc] at hq
  obtain ⟨w, hrun⟩ := run_to_done hf hb hp hw ha hq
  obtain ⟨u, hfin, hstep⟩ := step_of_inPass_done hf w q
  obtain ⟨f, c, e, r, es, rfl⟩ := exec_gFin_state hfin
  have htable := run_pass_cleanTable hclean hrun rfl hstep rfl
  refine ⟨_, (run_add_next core 401 1 hrun).trans (run_succ_next core 0 hstep),
    rfl, rfl, rfl, rfl, rfl, rfl, rfl, rfl, rfl, rfl, rfl, rfl, rfl, fun j hj => ?_⟩
  obtain ⟨v, hv⟩ := (State.inPass_generating hf hw ha w 400 q).law j hj
  exact ⟨v, hv, htable rfl j hj v hv⟩

end Sys2Proof.Machine
end

section
/-! PROOFS. The streaming operations (R181 to R183): T.FIRE's and TICK's effect and guard, the trigger window, and a run
of T.FIRE, TICK pairs that walks the table. -/

namespace Sys2Proof.Machine

variable {s : State} {x p k : Nat} {v : Sample} {w : Nat → Sample} {q : List Agent}

/-! ## T.FIRE and TICK's guard (R181, R182) -/

/-- Settles O31: T.FIRE's own guard is RUN alone, and its effect is one assignment. -/
theorem tFireSetsThePendingTick : Obligations.TFireSetsThePendingTick := fun _ hhalt =>
  ⟨fun hrun => hardwareStep_of_live hhalt hrun, fun hrun => exec_tFire_of_stopped hhalt hrun⟩

/-- Settles O33: IF and IE are TICK's own guard. -/
theorem tickNeedsAPendingEnabledTick : Obligations.TickNeedsAPendingEnabledTick := fun _ hhalt htick =>
  exec_tick_of_no_tick hhalt htick

/-! ## The trigger window (R182, R183) -/

theorem inWindow_iff : inWindow x p = true ↔ (x + 400 - p) % 400 ≤ 20 := decide_eq_true_iff

/-- The distance past the window's start is the offset at which the window meets the index. -/
theorem inWindow_iff_offset (hx : x < 400) (hp : p < 400) :
    inWindow x p = true ↔ ∃ o, o ≤ 20 ∧ x = (p + o) % 400 := by
  rw [inWindow_iff]
  constructor
  · intro hd
    exact ⟨(x + 400 - p) % 400, hd, by omega⟩
  · rintro ⟨o, ho, rfl⟩
    omega

/-- A property that repeats every a indices holds equally often in any a indices in a row. -/
theorem count_shift_of_periodic {P : Nat → Prop} [DecidablePred P] {a : Nat} (hP : Function.Periodic P a) (c : Nat) :
    Nat.count (fun i => P (c + i)) a = Nat.count P a := by
  have hshift : (fun i => P (a + i)) = P := funext fun i => (congrArg P (Nat.add_comm a i)).trans (hP i)
  have hsum : Nat.count P c + Nat.count (fun i => P (c + i)) a = Nat.count P a + Nat.count P c := by
    rw [← Nat.count_add, Nat.add_comm c a, Nat.count_add]
    simp only [hshift]
  omega

/-- Of 400 distances the first 21 are inside the window and no later one is. -/
theorem count_distance_le : Nat.count (fun d => d % 400 ≤ 20) 400 = 21 := by
  have hinside : Nat.count (fun d => d % 400 ≤ 20) 21 = 21 := Nat.count_iff_forall.2 fun d hd => by omega
  have houtside : Nat.count (fun k => (21 + k) % 400 ≤ 20) 379 = 0 := Nat.count_iff_forall_not.2 fun k hk => by omega
  exact (Nat.count_add _ 21 379).trans (by rw [hinside, houtside])

/-- Settles O59: seen from the window's start, the window is the first 21 of 400 indices in a row. -/
theorem triggerWindowHas21Indices : Obligations.TriggerWindowHas21Indices := by
  intro p hp
  have hstart : (fun j => inWindow j p) = fun j => decide ((400 - p + j) % 400 ≤ 20) := by
    funext j
    rw [inWindow, windowDistance, show j + 400 - p = 400 - p + j by omega]
  have hperiodic : Function.Periodic (fun d : Nat => d % 400 ≤ 20) 400 := fun d => by simp only [Nat.add_mod_right]
  rw [hstart, ← List.countP_eq_length_filter]
  exact (count_shift_of_periodic hperiodic (400 - p)).trans count_distance_le

/-! ## TICK's effect (R182) -/

theorem exec_tick_of_enabled (hhalt : s.halt = false) (htick : (s.ifFlag && s.ie) = true) (hx : s.sidx.toNat < 400) :
    exec .tick s = .next ((s.readWT s.sidx.toNat).2.serveTick (s.readWT s.sidx.toNat).1) :=
  (hardwareStep_of_live hhalt htick).trans (if_pos hx)

/-- Settles O32: the entry TICK reads has been written, or the read is one draw. -/
theorem tickOutputsOneSample : Obligations.TickOutputsOneSample := by
  intro s hhalt hif hie hx hp
  have hexec := exec_tick_of_enabled hhalt (by rw [hif, hie]; rfl) hx
  have hwindow := inWindow_iff_offset hx hp
  obtain ⟨v, hv, hread⟩ | ⟨hnone, hread⟩ := s.readWT_cases s.sidx.toNat <;> rw [hread] at hexec
  · exact ⟨_, v, 0, _, hexec, hwindow, fun w hw => ⟨Option.some.inj (hv.symm.trans hw), rfl⟩,
      fun hnone => absurd (hv.symm.trans hnone) nofun, rfl⟩
  · exact ⟨_, _, 1, _, hexec, hwindow, fun w hw => absurd (hnone.symm.trans hw) nofun, fun _ => ⟨rfl, rfl⟩, rfl⟩

/-! ## Walking the table (R183) -/

/-- The streaming unit's turn with a tick enabled and the entry written. -/
theorem step_of_written_tick (hhalt : s.halt = false) (hif : s.ifFlag = true) (hie : s.ie = true)
    (hx : s.sidx.toNat < 400) (hv : s.wtab.get? s.sidx.toNat = some v) (hq : s.turns = .streaming :: q) :
    step s = .next (State.serveTick { s with turns := q } v) := by
  rw [step_of_streaming_turn hhalt (s.turn_of_cons hq), streamTurn_of_tick hif hie, s.endTurn_of_cons hq,
    exec_tick_of_enabled (s := { s with turns := q }) hhalt (Bool.and_eq_true_iff.2 ⟨hif, hie⟩) hx,
    State.readWT_of_get? (s := { s with turns := q }) hv]

/-- A turn of the timer and one of the streaming unit, the clock running and the entry written: T.FIRE, then TICK. -/
theorem run_pair (hhalt : s.halt = false) (hrun : s.run = true) (hie : s.ie = true) (hx : s.sidx.toNat < 400)
    (hv : s.wtab.get? s.sidx.toNat = some v) (hq : s.turns = .timer :: .streaming :: q) :
    Host.Core.run core 2 s = .next (State.serveTick { s with turns := q } v) := by
  have hfire := step_timer_of_run hhalt hrun hq
  have htick := step_of_written_tick (s := { s with ifFlag := true, turns := .streaming :: q }) hhalt rfl hie hx hv rfl
  exact (run_succ_next core 1 hfire).trans (run_succ_next core 0 htick)

/-- The events of k TICKs from index x, newest first: each index's entry and trigger level (`run_pairs`). -/
def walkEvents (x p : Nat) (w : Nat → Sample) (k : Nat) : List Event :=
  (List.range k).reverse.flatMap fun j => [.trigger (inWindow ((x + j) % 400) p), .setDutyCycle (w ((x + j) % 400))]

theorem walkEvents_succ (x p : Nat) (w : Nat → Sample) (k : Nat) :
    walkEvents x p w (k + 1) =
      .trigger (inWindow ((x + k) % 400) p) :: .setDutyCycle (w ((x + k) % 400)) :: walkEvents x p w k := by
  simp [walkEvents, List.range_succ]

theorem nextIndex_mod_add (x k : Nat) : nextIndex ((x + k) % 400) = (x + (k + 1)) % 400 :=
  Nat.mod_add_mod (x + k) 400 1

/-- k pairs advance SIDX by k and otherwise write the history, PWM_DUTY and TRIG alone. -/
theorem run_pairs (hhalt : s.halt = false) (hrun : s.run = true) (hie : s.ie = true) (hif : s.ifFlag = false)
    (hx : s.sidx.toNat < 400) (hw : ∀ j, j < 400 → s.wtab.get? j = some (w j))
    (hq : s.turns = (List.replicate k [Agent.timer, .streaming]).flatten ++ q) :
    ∃ v b x, x.toNat = (s.sidx.toNat + k) % 400 ∧ Host.Core.run core (2 * k) s = .next
      { s with pwmDuty := v, trig := b, sidx := x, ifFlag := false, turns := q,
               history := walkEvents s.sidx.toNat s.phaseidx.toNat w k ++ s.history } := by
  induction k generalizing q with
  | zero =>
    obtain rfl : s.turns = q := hq
    have hsame : s = { s with ifFlag := false } := by rw [← hif]
    exact ⟨s.pwmDuty, s.trig, s.sidx, (Nat.mod_eq_of_lt hx).symm, congrArg Host.Outcome.next hsame⟩
  | succ k ih =>
    rw [List.replicate_succ', List.flatten_append, List.append_assoc] at hq
    obtain ⟨v, b, x, hpos, hwalk⟩ := ih hq
    have hlt : x.toNat < 400 := hpos ▸ Nat.mod_lt _ (by decide)
    have hpair := (run_add_next core (2 * k) 2 hwalk).trans (run_pair (q := q) hhalt hrun hie hlt (hw _ hlt) rfl)
    refine ⟨w x.toNat, inWindow x.toNat s.phaseidx.toNat, BitVec.ofNat 9 (nextIndex x.toNat), ?_,
      hpair.trans (congrArg Host.Outcome.next ?_)⟩
    · rw [nextIndex_toNat, hpos, nextIndex_mod_add]
    · rw [walkEvents_succ, ← hpos]
      rfl

/-- Settles O54: the walk's events are the statement's, written with the model's own window. -/
theorem tickPairsWalkTheTable : Obligations.TickPairsWalkTheTable := by
  intro s k q w hhalt hrun hie hif hx hw hq
  obtain ⟨v, b, x, hpos, hwalk⟩ := run_pairs hhalt hrun hie hif hx hw hq
  exact ⟨_, hwalk, hpos, rfl, rfl, rfl, rfl⟩

end Sys2Proof.Machine
end

section
/-! PROOFS. The exceptions: the tick's priority over every other operation but T.FIRE (R197), what that leaves of STOP
and of T.FIRE beside a pending tick (R199, R200), and the report codes' numbers (R190). -/

namespace Sys2Proof.Machine

variable {s : State}

/-! ## The enabled TICK's priority (R197) -/

/-- T.FIRE and TICK alone are not under the priority rule. -/
theorem exec_of_held (hhalt : s.halt = false) (hif : s.ifFlag = true) (hie : s.ie = true) {i : Instr}
    (hfire : i ≠ .tFire) (htick : i ≠ .tick) : exec i s = .refused .heldByTick := by
  cases i with
  | tFire => exact absurd rfl hfire
  | tick => exact absurd rfl htick
  | _ => exact taskStep_of_tick hhalt hif hie

/-- Settles O10: the enabled TICK takes the host's and the engine's turn and holds back all but T.FIRE and TICK, which
have guards of their own alone. -/
theorem enabledTickHasPriority : Obligations.EnabledTickHasPriority := by
  intro s hhalt hif hie
  have henabled : (s.ifFlag && s.ie) = true := Bool.and_eq_true_iff.2 ⟨hif, hie⟩
  exact ⟨step_of_held_turn hhalt henabled, fun _ => exec_of_held hhalt hif hie, exec_tick_runs hhalt henabled,
    exec_tFire_runs hhalt⟩

/-! ## STOP, T.FIRE and a pending tick (R199, R200) -/

/-- Settles O39: STOP runs with no TICK enabled, which with IE = 1 means IF = 0, and it keeps IF. -/
theorem stopFindsNoPendingTick : Obligations.StopFindsNoPendingTick := by
  intro s t h hie
  obtain ⟨⟨-, htick⟩, rfl⟩ := exec_stop_next h
  have hif : s.ifFlag = false := by rwa [hie, Bool.and_true] at htick
  exact ⟨hif, hif⟩

theorem exec_tFire_of_run (hhalt : s.halt = false) (hrun : s.run = true) :
    exec .tFire s = .next { s with ifFlag := true } :=
  hardwareStep_of_live hhalt hrun

/-- T.FIRE is absorbed by a tick already pending (R203). -/
theorem exec_tFire_of_pending (hhalt : s.halt = false) (hrun : s.run = true) (hif : s.ifFlag = true) :
    exec .tFire s = .next s := by
  have hsame : { s with ifFlag := true } = s := by rw [← hif]
  rw [exec_tFire_of_run hhalt hrun, hsame]

/-- Settles O40: TICK clears IF and keeps RUN and HALT, so T.FIRE's guard holds after it too. -/
theorem tFireAndTickInEitherOrder : Obligations.TFireAndTickInEitherOrder := by
  intro s hhalt hrun hif hie hx
  obtain ⟨t, htick⟩ := exec_tick_runs hhalt (Bool.and_eq_true_iff.2 ⟨hif, hie⟩) hx
  refine ⟨exec_tFire_of_pending hhalt hrun hif, t, htick, ?_⟩
  obtain ⟨v, b, d, rfl⟩ := exec_tick_state htick
  exact ⟨rfl, exec_tFire_of_run hhalt hrun⟩

/-! ## The report codes' numbers (R190) -/

/-- The nine report codes, each at its number's place (`getElem?_reportNumber`). -/
def reportCodes : List ReportCode :=
  [.ok, .invalidCommand, .invalidFrequency, .invalidAmplitude, .invalidPhase, .invalidDuty, .configError, .loadComplete,
   .hardwareFault]

theorem getElem?_reportNumber (c : ReportCode) : reportCodes[(reportNumber c).toNat]? = some c := by
  cases c <;> rfl

/-- A code can be read back from its number. -/
theorem reportNumber_injective : Function.Injective reportNumber := by
  intro c d h
  have hread := getElem?_reportNumber c
  rw [h, getElem?_reportNumber] at hread
  exact (Option.some.inj hread).symm

/-- Settles O44: the numbers are the model's, and a number gives its code back, so no two codes share one. -/
theorem reportCodesAreNumbered : Obligations.ReportCodesAreNumbered :=
  ⟨rfl, rfl, rfl, rfl, rfl, rfl, rfl, rfl, rfl, fun _ _ h => reportNumber_injective h⟩

end Sys2Proof.Machine
end

section
/-! PROOFS. The quiescent block (R207, R235): an engine operation needs a pass running or asked for, so with neither only
the host, T.FIRE and TICK can step, and after reset (R221) the host alone. -/

namespace Sys2Proof.Machine

variable {s t : State} {i : Instr}

/-- R90: beside the host commands there are the engine's operations, T.FIRE and TICK. -/
theorem isEngine_or_of_not_isHost (hi : i.isHost = false) : i.isEngine = true ∨ i = .tFire ∨ i = .tick := by
  cases i with
  | gStart | gOff | gSine | gSqr | gTri | gArb | gFin => exact .inl rfl
  | tFire => exact .inr (.inl rfl)
  | tick => exact .inr (.inr rfl)
  | _ => cases hi

/-- G.START needs PEND = 1, every other engine operation GBUSY = 1. -/
theorem exec_engine_busy_or_pending (hi : i.isEngine = true) (h : exec i s = .next t) :
    s.gbusy = true ∨ s.pend = true := by
  cases i with
  | gStart => obtain ⟨-, -, hp, -⟩ := exec_gStart_next h; exact .inr hp
  | gOff | gSine | gSqr | gTri | gArb => obtain ⟨-, hb, -⟩ := exec_generator_next rfl h; exact .inl hb
  | gFin => obtain ⟨-, hb, -⟩ := exec_gFin_next h; exact .inl hb
  | _ => cases hi

/-- Settles O41: no engine operation runs, and T.FIRE and TICK need their own guards. -/
theorem quiescentBlockOnlyTicks : Obligations.QuiescentBlockOnlyTicks := by
  intro i s t hb hp hi h
  obtain hengine | rfl | rfl := isEngine_or_of_not_isHost hi
  · have hwork := exec_engine_busy_or_pending hengine h
    simp [hb, hp] at hwork
  · obtain ⟨-, hrun, -⟩ := exec_tFire_next h
    exact .inl ⟨rfl, hrun⟩
  · obtain ⟨-, hif, hie, -⟩ := exec_tick_next h
    exact .inr ⟨rfl, hif, hie⟩

/-- Settles O46: the reset block is quiescent with RUN = IF = 0, so O41 leaves the host commands, and it is free, so
each of them runs. -/
theorem resetEnablesTheHostAlone : Obligations.ResetEnablesTheHostAlone := by
  intro i
  constructor
  · rintro ⟨t, h⟩
    by_contra hi
    obtain ⟨-, hrun⟩ | ⟨-, hif, -⟩ := quiescentBlockOnlyTicks i _ t rfl rfl (Bool.eq_false_iff.2 hi) h
    · cases hrun
    · cases hif
  · intro hi
    exact exec_host_runs hi ⟨rfl, rfl⟩ (by decide)

end Sys2Proof.Machine
end
